-- ==== Sys2Proof/Word.lean ====
section
/-! DEFINITION. The word of the unit (R2, R4: `XLEN` = 32) and the byte of a bus lane (R33). -/

namespace Sys2Proof

/-- A 32-bit pattern: a data register, a command word, the data of a bus access (R2, R45). -/
abbrev Word := BitVec 32

/-- One byte lane of the host bus (R33). -/
abbrev Byte := BitVec 8

end Sys2Proof
end

