-- ==== Sys2Proof/Config.lean ====
section
/-! DEFINITION. What an implementation fixes (R4) and the one value the spec leaves free (R141, U3). -/

namespace Sys2Proof

/-- `NREGS` of R4: the words of the register space. -/
def Config.nregs : Nat := 16

/-- `NBANKS` of the machine that `State.reset` describes: the value of R4's table.
The number of banks of any other state is the length of its bank list (log 6). -/
def Config.nbanks : Nat := 4

/-- `BASE` of the machine that `State.reset` describes. DESIGN CHOICE (log 7), unsafe: R4 leaves `BASE` to the platform. -/
def Config.base : Nat := 0

/-- What the host's floating-point software can hand to RealToFixed (R141): a finite real or one of the values it has no pattern for. -/
inductive HostReal where
  | finite (q : Rat)
  | infinity (negative : Bool)
  | nan
deriving DecidableEq, Repr

/-- The pattern RealToFixed leaves, under this rounding flag, outside its defined range, for a NaN and for an infinity: "any
32-bit pattern" (R141, U3).
A free value: it has no body, and nothing constrains it (log 15). -/
opaque Config.unspecifiedNarrowing : Bool → HostReal → Word

end Sys2Proof
end

