-- ==== Sys2Proof/Machine/Constants.lean ====
section
/-! DEFINITION. The precomputed constants of R5, as raw integers, and the default settings bounds (R14).
UNVERIFIED against the original library where the spec says so (log 12): the values are the spec's. -/

namespace Sys2Proof.Machine

/-- `SENTINEL`, the raw integer of the pattern 0x80000000 (R3). -/
def sentinel : Int := -2147483648
def one : Int := 65536
def half : Int := 32768
def two : Int := 131072
def three : Int := 196608
def hundred : Int := 6553600
def pi : Int := 205887
def twoPi : Int := 411774
def halfPi : Int := 102944
def quarterPi : Int := 51472
def threeQuarterPi : Int := 154416
/-- `E` of R5. -/
def constE : Int := 178145
/-- `E4` of R5, e to the fourth. -/
def constE4 : Int := 3578144
def d180 : Int := 11796480
def d360 : Int := 23592960
def expArgMax : Int := 681391
def expLastIndex : Nat := 29
def expT1 : Int := 500
def expT2 : Int := 20
def expTI : Nat := 15
def lnIter : Nat := 10
def tanhLimit : Int := 425984
def atanC1 : Int := 64336
def atanC3 : Int := 12864
/-- `DEFAULT_MIN` of R5 and R14, as its pattern. -/
def defaultMin : Word := 0x80000001#32
/-- `DEFAULT_MAX` of R5 and R14, as its pattern. -/
def defaultMax : Word := 0x7FFFFFFF#32

end Sys2Proof.Machine
end

