-- ==== Sys2Proof/Machine/State.lean ====
section
/-! DEFINITION. The state of the unit (R18), the accesses the host has delivered, the reset state (R19), and the reasons a step stops. -/

namespace Sys2Proof.Machine

/-- A settings record, 66 bits: bounds, rounding flag, saturation flag (R13). -/
structure Settings where
  min : Word
  max : Word
  rnd : Bool
  sat : Bool
deriving DecidableEq, Repr

/-- The hard-wired default settings (R14). -/
def defaultSettings : Settings := ⟨defaultMin, defaultMax, true, false⟩

/-- One event the host or the platform delivers to the unit (R6, R34 to R36, R165). `addr` is a host byte address. -/
inductive Access where
  /-- A read of `width` bytes at `addr`. -/
  | read (addr width : Nat)
  /-- A write of the bytes `lanes`, lowest address first, at `addr`. -/
  | write (addr : Nat) (lanes : List Byte)
  /-- The platform's reset input (R165); it falls between accesses (R166, log 5). -/
  | reset
deriving DecidableEq, Repr

/-- What the bus carries back for the access performed last (the model's own field, log 3). -/
inductive Reply where
  /-- Nothing has been answered since reset. -/
  | none
  /-- The byte lanes a read returned (R33, R34). -/
  | data (lanes : List Byte)
  /-- A write has completed (R35, R38). -/
  | written
deriving DecidableEq, Repr

/-- The unit has no fault: "The unit raises no synchronous exception" (R150, log 17). Nothing raises one; safe. -/
inductive Fault
deriving DecidableEq, Repr

/-- Why a step gives no next state. -/
inductive Refusal where
  /-- Raised by `exec` for a command that has no meaning yet; no arm raises it. Safe. -/
  | notModelled (mnemonic : String)
  /-- Raised by `step` for an access the register space does not admit: the unit signals a bus error, performs no part
  of it and changes no state (R36, R153, log 4). Safe: the unit gives such an access no step. -/
  | busError (access : Access)
deriving DecidableEq, Repr

/-- All the state of the unit (R18), the platform's `BASE`, and the bus: the accesses not yet performed, oldest first, and
the last answer. `NBANKS` is the length of `banks` (log 6). -/
structure State where
  opa : Word
  opb : Word
  res : Word
  acc : Word
  banks : List Settings
  sel : BitVec 8
  ill : Bool
  cfgerr : Bool
  pstk : Bool
  base : Nat
  bus : List Access
  reply : Reply
deriving DecidableEq, Repr

/-- The state after reset of a unit with `nbanks` banks at `base` (R19, R165), with nothing pending on the bus. -/
def State.resetOf (nbanks base : Nat) : State :=
  { opa := 0, opb := 0, res := 0, acc := 0
    banks := List.replicate nbanks defaultSettings
    sel := 0xFF#8
    ill := false, cfgerr := false, pstk := false
    base := base, bus := [], reply := .none }

/-- The machine right after reset (R19), with the parameters of `Config`. -/
def State.reset : State := State.resetOf Config.nbanks Config.base

end Sys2Proof.Machine
end

