-- ==== Sys2Proof/Machine/Ops.lean ====
section
/-! DEFINITION. The notation of `00_scope.md` section 7 as functions, and the named operations over the registers.
The unit has no memory (R32) and takes no exception (R150, R156, R157; log 17): there is no memory operation and no trap entry or return here. -/

namespace Sys2Proof.Machine

/-- `sext_32`: the raw integer of a pattern (R2). -/
def raw (w : Word) : Int := w.toInt
/-- The pattern a register holds after the unbounded result `v` is written to it, `v mod 2^32`. -/
def word (v : Int) : Word := BitVec.ofInt 32 v
/-- `wrap32`: the integer in -2^31 .. 2^31-1 congruent to `v` modulo 2^32. -/
def wrap32 (v : Int) : Int := raw (word v)
/-- `trunc_div`: the quotient rounded toward zero. -/
def truncDiv (n d : Int) : Int := Int.tdiv n d
/-- `{w[31:16], 0x0000}`: the integer part of a pattern. -/
def integerPart (w : Word) : Word := w.extractLsb' 16 16 ++ 0#16

/-- `NBANKS` (R4, log 6). -/
def State.nbanks (s : State) : Nat := s.banks.length

/-- The active settings (R15): bank `SEL`, or the default settings. A `SEL` that names no bank, which the unit never
stores but for 0xFF, is read as the default (log 8). -/
def State.active (s : State) : Settings := s.banks.getD s.sel.toNat defaultSettings

/-- `RES <- v` (R11). -/
def State.writeRes (s : State) (v : Int) : State := { s with res := word v }
/-- `ACC <- v` (R12). -/
def State.writeAcc (s : State) (v : Int) : State := { s with acc := word v }
/-- `BANK[k] <- b`, all four fields together (R61 (b)). -/
def State.writeBank (s : State) (k : Nat) (b : Settings) : State := { s with banks := s.banks.set k b }
/-- `SEL <- k` (R62). -/
def State.writeSel (s : State) (k : BitVec 8) : State := { s with sel := k }
/-- The oldest pending access is done and `r` is its answer (R38, log 1, log 3). -/
def State.retire (s : State) (r : Reply) : State := { s with bus := s.bus.tail, reply := r }
/-- Reset (R165): every piece of state of R18 takes its value of R19; the parameters and the bus stay. -/
def State.resetUnit (s : State) : State :=
  { State.resetOf s.nbanks s.base with bus := s.bus, reply := s.reply }

/-- `f` on the next state, if there is one. -/
def onNext (f : State → State) : Host.Outcome State Fault Refusal → Host.Outcome State Fault Refusal
  | .next s => .next (f s)
  | .fault r => .fault r
  | .refused r => .refused r

end Sys2Proof.Machine
end

