-- ==== Sys2Proof/Machine/Operands.lean ====
section
/-! DEFINITION. The operand forms of R47 and R48: none, `A`, `AB`; each with the active settings sampled when the command starts (R15, R169). -/

namespace Sys2Proof.Machine

/-- `sext_32(OPA)`, the operand of an `A` command and the left operand of an `AB` command (R10, R48). -/
def State.operandA (s : State) : Int := raw s.opa
/-- `sext_32(OPB)`, the right operand of an `AB` command (R10, R48). -/
def State.operandB (s : State) : Int := raw s.opb

/-- An `A` command that writes `RES` and nothing else: `RES <- F(OPA)` under the active settings (R11, R48). -/
def commandA (f : Settings → Int → Int) (s : State) : Host.Outcome State Fault Refusal :=
  .next (s.writeRes (f s.active s.operandA))

/-- An `AB` command that writes `RES` and nothing else: `RES <- F(OPA, OPB)` under the active settings (R11, R48). -/
def commandAB (f : Settings → Int → Int → Int) (s : State) : Host.Outcome State Fault Refusal :=
  .next (s.writeRes (f s.active s.operandA s.operandB))

end Sys2Proof.Machine
end

