-- ==== Sys2Proof/Machine/Conversion.lean ====
section
/-! DEFINITION. The integer conversion commands INT2FIX, FIX2INT (`41_conversion.md`). -/

namespace Sys2Proof.Machine

/-- R65: `wrap32(a << 16)`. -/
def fxInt2fix (a : Int) : Int := wrap32 (a * 65536)

/-- R66: half away from zero with `RND` = 1, the arithmetic shift with `RND` = 0. -/
def fxFix2int (st : Settings) (a : Int) : Int :=
  if st.rnd then truncDiv (if 0 ≤ a then a + 32768 else a - 32768) 65536 else a / 65536

/-- INT2FIX, R65. -/
def execInt2fix (s : State) : Host.Outcome State Fault Refusal := commandA (fun _ a => fxInt2fix a) s
/-- FIX2INT, R66. -/
def execFix2int (s : State) : Host.Outcome State Fault Refusal := commandA fxFix2int s

end Sys2Proof.Machine
end

