-- ==== Sys2Proof/Machine/Arithmetic.lean ====
section
/-! DEFINITION. Core arithmetic and the saturation_overflow_detector (`42_arithmetic.md`): ADD, SUB, MUL, DIV, MOD, ABS, FLOOR, CEIL, ROUND. -/

namespace Sys2Proof.Machine

/-- R72: the sum in the unsigned 32-bit working space, tested by the signs. `SAT` is not consulted (R70). -/
def fxAdd (a b : Int) : Int :=
  let wa := word a
  let wb := word b
  let r := wa + wb
  if wa.msb = wb.msb ∧ r.msb ≠ wa.msb then sentinel else raw r

/-- R73: the same test applied to `a + (-b)`. -/
def fxSub (a b : Int) : Int :=
  let wa := word a
  let wb := word b
  let r := wa - wb
  if wa.msb ≠ wb.msb ∧ r.msb ≠ wa.msb then sentinel else raw r

/-- The rounding of R74 on the exact product: to nearest with ties away from zero, or bits [47:16]. -/
def mulRound (st : Settings) (p : Int) : Int :=
  if st.rnd then (if 0 ≤ p then (p + 32768) / 65536 else (p + 32767) / 65536) else p / 65536

/-- R74. `p / 2^47` is `P[63:47]` read as a signed number: all zero is 0, all one is -1. -/
def fxMul (st : Settings) (a b : Int) : Int :=
  let p := a * b
  if p / 140737488355328 = 0 ∨ p / 140737488355328 = -1 then
    (if 2147483647 < mulRound st p then sentinel else mulRound st p)
  else sentinel

/-- The rounded magnitude `M` of R75, before DIV's own sentinel and saturation step (LOG2 stops here, R93). -/
def divMagnitude (st : Settings) (a b : Int) : Nat :=
  let n := a.natAbs * 65536
  let d := b.natAbs
  if st.rnd && decide (d ≤ 2 * (n % d)) then n / d + 1 else n / d

/-- What DIV writes on overflow, by the sign the true quotient would have had (R70, R75). -/
def divOverflow (st : Settings) (neg : Bool) : Int :=
  if st.sat then (if neg then raw st.min else raw st.max) else sentinel

/-- The last four lines of R75: sign, sentinel and saturation for the magnitude `m`. -/
def divFinish (st : Settings) (neg : Bool) (m : Nat) : Int :=
  if 2147483648 ≤ m then divOverflow st neg else if neg then -(m : Int) else (m : Int)

/-- The sign of the quotient: the operands' sign bits, by XOR (R75). -/
def divNeg (a b : Int) : Bool := decide (a < 0) != decide (b < 0)

/-- R75: a zero divisor gives `MIN`, whatever the dividend and `SAT`. -/
def fxDiv (st : Settings) (a b : Int) : Int :=
  if b = 0 then raw st.min else divFinish st (divNeg a b) (divMagnitude st a b)

/-- R77: the remainder of truncating division; a zero divisor gives the sentinel. -/
def fxMod (a b : Int) : Int := if b = 0 then sentinel else a - b * truncDiv a b

/-- R78. -/
def fxAbs (a : Int) : Int := if 0 ≤ a then a else wrap32 (-a)

/-- R79: `{OPA[31:16], 0x0000}`. -/
def fxFloor (a : Int) : Int := raw (integerPart (word a))

/-- R80: one unit more where a fraction bit is set, by a plain 32-bit addition. -/
def fxCeil (a : Int) : Int :=
  raw (integerPart (word a) + (if (word a).extractLsb' 0 16 ≠ 0 then 0x00010000#32 else 0#32))

/-- R81: a half unit more, then the floor; `RND` is not read. -/
def fxRound (a : Int) : Int := raw (integerPart (word a + 0x00008000#32))

/-- ADD, R72. -/
def execAdd (s : State) : Host.Outcome State Fault Refusal := commandAB (fun _ a b => fxAdd a b) s
/-- SUB, R73. -/
def execSub (s : State) : Host.Outcome State Fault Refusal := commandAB (fun _ a b => fxSub a b) s
/-- MUL, R74. -/
def execMul (s : State) : Host.Outcome State Fault Refusal := commandAB fxMul s
/-- DIV, R75. -/
def execDiv (s : State) : Host.Outcome State Fault Refusal := commandAB fxDiv s
/-- MOD, R77. -/
def execMod (s : State) : Host.Outcome State Fault Refusal := commandAB (fun _ a b => fxMod a b) s
/-- ABS, R78. -/
def execAbs (s : State) : Host.Outcome State Fault Refusal := commandA (fun _ a => fxAbs a) s
/-- FLOOR, R79. -/
def execFloor (s : State) : Host.Outcome State Fault Refusal := commandA (fun _ a => fxFloor a) s
/-- CEIL, R80. -/
def execCeil (s : State) : Host.Outcome State Fault Refusal := commandA (fun _ a => fxCeil a) s
/-- ROUND, R81. -/
def execRound (s : State) : Host.Outcome State Fault Refusal := commandA (fun _ a => fxRound a) s

end Sys2Proof.Machine
end

