-- ==== Sys2Proof/Machine/Flags.lean ====
section
/-! DEFINITION. The three status flags, the only ones there are (R16), and the registers that show flags and settings (R15, R16). -/

namespace Sys2Proof.Machine

/-- `ILL <- 1`, and nothing else changes: an illegal command (R50). -/
def State.reportIllegal (s : State) : State := { s with ill := true }
/-- A host write of `v` to `STATUS`: bit 0 set clears `ILL`; other bits are ignored (R35). -/
def State.writeStatus (s : State) (v : Word) : State := if v.getLsbD 0 then { s with ill := false } else s
/-- `CFGERR`: the complement of the success of the last CFGSET (R16, R61). -/
def State.setCfgerr (s : State) (failed : Bool) : State := { s with cfgerr := failed }
/-- `PSTK`, set by PSTEP and cleared by PINIT (R16). -/
def State.setPstk (s : State) (stuck : Bool) : State := { s with pstk := stuck }

/-- A flag as a one-bit vector. -/
def bit (b : Bool) : BitVec 1 := BitVec.ofBool b

/-- The content of `STATUS`: `ILL`, `CFGERR`, `PSTK` in bits 0, 1, 2, zero above (R16). -/
def State.status (s : State) : Word := 0#29 ++ bit s.pstk ++ bit s.cfgerr ++ bit s.ill
/-- The content of `ACT_CTRL`: `RND`, `SAT`, zeros, `SEL` in [15:8], zeros (R15). -/
def State.actCtrl (s : State) : Word := 0#16 ++ s.sel ++ 0#6 ++ bit s.active.sat ++ bit s.active.rnd

end Sys2Proof.Machine
end

