-- ==== Sys2Proof/Machine/ExpLnPowPoly.lean ====
section
/-! DEFINITION. EXP, LN, POW, PINIT, PSTEP (`44_exp_ln_pow_poly.md`). Loops carry the rule's own bound as fuel (log 11). -/

namespace Sys2Proof.Machine

/-- The loop of R100 from index `i`, at most `fuel` passes; `none` is a sentinel exit. -/
def expSeries (st : Settings) (ax : Int) : Nat → Nat → Int → Int → Option Int
  | 0, _, _, res => some res
  | fuel + 1, i, term, res =>
    let t := fxMul st term (fxDiv st ax ((i : Int) * 65536))
    let r := fxAdd res t
    if t = sentinel then none
    else if r = sentinel then none
    else if t < expT1 ∧ (expTI < i ∨ t < expT2) then some r
    else expSeries st ax fuel (i + 1) t r

/-- The series of R100 at `|x|`: the terms `1 + |x|`, then the indices 2 .. `EXP_LAST_INDEX`. -/
def expMagnitude (st : Settings) (ax : Int) : Option Int :=
  expSeries st ax (expLastIndex - 1) 2 ax (fxAdd ax one)

/-- R100: shortcuts, clamps (which do not consult `SAT`), series, and the reciprocal for a negative operand. -/
def fxExp (st : Settings) (x : Int) : Int :=
  if x = 0 then one
  else if x = one then constE
  else if expArgMax ≤ x then raw st.max
  else if x ≤ -expArgMax then 0
  else match expMagnitude st (x.natAbs : Int) with
    | none => sentinel
    | some r => if x < 0 then fxDiv st one r else r

/-- `while x > HUNDRED` of R103: the value and `scaling`. -/
def lnScaleDown (st : Settings) : Nat → Int → Int → Int × Int
  | 0, x, k => (x, k)
  | fuel + 1, x, k => if hundred < x then lnScaleDown st fuel (fxDiv st x constE4) (k + 4) else (x, k)

/-- `while x < ONE` of R103: the value and `scaling`. -/
def lnScaleUp (st : Settings) : Nat → Int → Int → Int × Int
  | 0, x, k => (x, k)
  | fuel + 1, x, k => if x < one then lnScaleUp st fuel (fxMul st x constE4) (k - 4) else (x, k)

/-- The correction of R103 for one guess, clamped above at 3.0. -/
def lnDelta (st : Settings) (x guess : Int) : Int :=
  let e := fxExp st guess
  let d := fxDiv st (wrap32 (x - e)) e
  if three < d then three else d

/-- The refinement of R103, at most `fuel` times; the stop test comes after the update. -/
def lnRefine (st : Settings) (x : Int) : Nat → Int → Int
  | 0, guess => guess
  | fuel + 1, guess =>
    let d := lnDelta st x guess
    let g := wrap32 (guess + d)
    if -1 ≤ d ∧ d ≤ 1 then g else lnRefine st x fuel g

/-- The range reduction of R103: at most 2 divisions and 3 multiplications by e to the fourth. -/
def lnReduce (st : Settings) (x : Int) : Int × Int :=
  let (y, k) := lnScaleDown st 2 x 0
  lnScaleUp st 3 y k

/-- R103: the sentinel for a non-positive operand; `SAT` is not consulted for it. -/
def fxLn (st : Settings) (x : Int) : Int :=
  if x ≤ 0 then sentinel
  else
    let (y, scaling) := lnReduce st x
    wrap32 (lnRefine st y lnIter two + scaling * 65536)

/-- The integer path of R105: `n` multiplications by `x`, ended by the sentinel pattern. -/
def powLoop (st : Settings) (x : Int) : Nat → Int → Int
  | 0, r => r
  | n + 1, r =>
    let q := fxMul st x r
    if q = sentinel then q else powLoop st x n q

/-- The general path of R105: `exp(y * log|x|)`, negated for a negative base; any sentinel sub-result is the result. -/
def powGeneral (st : Settings) (x y : Int) : Int :=
  let l := fxLn st (fxAbs x)
  if l = sentinel then sentinel
  else
    let t := fxMul st y l
    if t = sentinel then sentinel
    else
      let e := fxExp st t
      if e = sentinel then sentinel else if x < 0 then wrap32 (-e) else e

/-- R105: an exact non-negative integer exponent takes the integer path. -/
def fxPow (st : Settings) (x y : Int) : Int :=
  if 0 ≤ y ∧ y % 65536 = 0 then powLoop st x (y / 65536).toNat one else powGeneral st x y

/-- EXP, R100. -/
def execExp (s : State) : Host.Outcome State Fault Refusal := commandA fxExp s
/-- LN, R103. -/
def execLn (s : State) : Host.Outcome State Fault Refusal := commandA fxLn s
/-- POW, R105. -/
def execPow (s : State) : Host.Outcome State Fault Refusal := commandAB fxPow s

/-- PINIT, R107: `ACC` and `RES` take `OPA`, `PSTK` is cleared. -/
def execPinit (s : State) : Host.Outcome State Fault Refusal :=
  .next (((s.writeAcc s.operandA).setPstk false).writeRes s.operandA)

/-- `ACC` and `PSTK` after one Horner step (R108): only the product short-circuits. -/
def pstepAcc (s : State) : State :=
  if s.pstk then s
  else
    let t := fxMul s.active (raw s.acc) s.operandA
    if t = sentinel then (s.writeAcc sentinel).setPstk true else s.writeAcc (fxAdd t s.operandB)

/-- PSTEP, R108: then `RES <- ACC` (also where `ACC` is not the sentinel although `PSTK` is set, which no run reaches: log 19). -/
def execPstep (s : State) : Host.Outcome State Fault Refusal :=
  .next ((pstepAcc s).writeRes (raw (pstepAcc s).acc))

end Sys2Proof.Machine
end

