-- ==== Sys2Proof/Machine/Hyperbolic.lean ====
section
/-! DEFINITION. COSH, SINH, TANH (`47_hyperbolic.md`), each over two evaluations of EXP (R138). -/

namespace Sys2Proof.Machine

/-- R135: the exact sum, halved, rounded down. -/
def fxCosh (st : Settings) (x : Int) : Int :=
  if x = 0 then one
  else if expArgMax ≤ x ∨ x ≤ -expArgMax then raw st.max
  else
    let ep := fxExp st x
    let en := fxExp st (wrap32 (-x))
    if ep = sentinel ∨ en = sentinel then sentinel else (ep + en) / 2

/-- R136: the exact difference, halved toward minus infinity. -/
def fxSinh (st : Settings) (x : Int) : Int :=
  if x = 0 then 0
  else if expArgMax ≤ x then raw st.max
  else if x ≤ -expArgMax then raw st.min
  else
    let ep := fxExp st x
    let en := fxExp st (wrap32 (-x))
    if ep = sentinel ∨ en = sentinel then sentinel else (ep - en) / 2

/-- R137: no sentinel test; the threshold test is strict. -/
def fxTanh (st : Settings) (x : Int) : Int :=
  if x = 0 then 0
  else if tanhLimit < x then one
  else if x < -tanhLimit then -one
  else
    let ep := fxExp st x
    let en := fxExp st (wrap32 (-x))
    fxDiv st (wrap32 (ep - en)) (wrap32 (ep + en))

/-- COSH, R135. -/
def execCosh (s : State) : Host.Outcome State Fault Refusal := commandA fxCosh s
/-- SINH, R136. -/
def execSinh (s : State) : Host.Outcome State Fault Refusal := commandA fxSinh s
/-- TANH, R137. -/
def execTanh (s : State) : Host.Outcome State Fault Refusal := commandA fxTanh s

end Sys2Proof.Machine
end

