-- ==== Sys2Proof/Machine/SqrtLog2.lean ====
section
/-! DEFINITION. SQRT and LOG2 (`43_sqrt_log2.md`). Loops carry the rule's own bound as fuel (log 11). -/

namespace Sys2Proof.Machine

/-- The integer square root bit by bit: the largest extension of `r` by `k` more result bits whose square is at most `n`. -/
def isqrtBits : Nat → Nat → Nat → Nat
  | 0, _, r => r
  | k + 1, n, r => if (r + 2 ^ k) * (r + 2 ^ k) ≤ n then isqrtBits k n (r + 2 ^ k) else isqrtBits k n r

/-- `isqrt` of `00_scope.md` section 7 on a 48-bit radicand: the largest `r` with `r*r ≤ n`. -/
def isqrt (n : Nat) : Nat := isqrtBits 24 n 0

/-- R90 on an operand above zero. -/
def sqrtPositive (st : Settings) (a : Nat) : Nat :=
  let n := a * 65536
  let r := isqrt n
  if st.rnd && decide (r < n - r * r) then r + 1 else r

/-- R90: the sentinel for a non-positive operand, zero included. -/
def fxSqrt (st : Settings) (a : Int) : Int :=
  if a ≤ 0 then sentinel else (sqrtPositive st a.toNat : Int)

/-- `rs` of R93: halve, and with `RND` = 1 add the dropped bit back. -/
def log2Rs (st : Settings) (v : Int) : Int := v / 2 + (if st.rnd then v % 2 else 0)

/-- The halving loop of R93 (`while v >= TWO`): the value and the count. -/
def log2Halve (st : Settings) : Nat → Int → Nat → Int × Nat
  | 0, v, n => (v, n)
  | k + 1, v, n => if two ≤ v then log2Halve st k (log2Rs st v) (n + 1) else (v, n)

/-- The square-compare-shift stages of R93 (R94): the value and the result so far. -/
def log2Stages (st : Settings) : Nat → Int → Int → Int × Int
  | 0, v, res => (v, res)
  | k + 1, v, res =>
    let q := fxMul st v v
    if two ≤ q then log2Stages st k (log2Rs st q) (2 * res + 1) else log2Stages st k q (2 * res)

/-- `log2core` of R93: at most 15 halvings, 16 stages, and with `RND` = 1 the final rounding check. -/
def log2Core (st : Settings) (v : Int) : Int :=
  let (m, n) := log2Halve st 15 v 0
  let (q, res) := log2Stages st 16 m n
  if st.rnd && decide (two ≤ fxMul st q q) then res + 1 else res

/-- What LOG2 writes on overflow, whatever the cause (R70, R93). -/
def log2Overflow (st : Settings) : Int := if st.sat then raw st.min else sentinel

/-- R93. Below one unit: minus the logarithm of the reciprocal, DIV's magnitude path before its sentinel and saturation step. -/
def fxLog2 (st : Settings) (a : Int) : Int :=
  if a ≤ 0 then log2Overflow st
  else if a < one then
    (let m := divMagnitude st one a
     if 2147483648 ≤ m then log2Overflow st else wrap32 (-(log2Core st (m : Int))))
  else log2Core st a

/-- SQRT, R90. -/
def execSqrt (s : State) : Host.Outcome State Fault Refusal := commandA fxSqrt s
/-- LOG2, R93. -/
def execLog2 (s : State) : Host.Outcome State Fault Refusal := commandA fxLog2 s

end Sys2Proof.Machine
end

