-- ==== Sys2Proof/Machine/InverseTrig.lean ====
section
/-! DEFINITION. ATAN2, ATAN, ASIN, ACOS (`46_inverse_trig.md`). -/

namespace Sys2Proof.Machine

/-- The sign-mask absolute value of R125: `wrap32((y + mask) xor mask)` with `mask` 0 or all ones. -/
def signMaskAbs (y : Int) : Int :=
  let mask : Int := if y < 0 then -1 else 0
  raw (word (y + mask) ^^^ word mask)

/-- The ratio of R125, chosen by the sign of `x`; plain additions. -/
def atan2Ratio (st : Settings) (ay x : Int) : Int :=
  if 0 ≤ x then fxDiv st (wrap32 (x - ay)) (wrap32 (x + ay)) else fxDiv st (wrap32 (x + ay)) (wrap32 (ay - x))

/-- R125, `y` first; no result of MUL or DIV is tested. -/
def fxAtan2 (st : Settings) (y x : Int) : Int :=
  let r := atan2Ratio st (signMaskAbs y) x
  let base := if 0 ≤ x then quarterPi else threeQuarterPi
  let r3 := fxMul st (fxMul st r r) r
  let angle := wrap32 (base + fxMul st atanC3 r3 - fxMul st atanC1 r)
  if y < 0 then wrap32 (-angle) else angle

/-- R126. -/
def fxAtan (st : Settings) (x : Int) : Int := fxAtan2 st x one

/-- R127: 0 outside [-1, 1]; composed as written at the ends. -/
def fxAsin (st : Settings) (x : Int) : Int :=
  if one < x ∨ x < -one then 0
  else fxAtan st (fxDiv st x (fxSqrt st (wrap32 (one - fxMul st x x))))

/-- R128. -/
def fxAcos (st : Settings) (x : Int) : Int := wrap32 (halfPi - fxAsin st x)

/-- ATAN2, R125. -/
def execAtan2 (s : State) : Host.Outcome State Fault Refusal := commandAB fxAtan2 s
/-- ATAN, R126. -/
def execAtan (s : State) : Host.Outcome State Fault Refusal := commandA fxAtan s
/-- ASIN, R127. -/
def execAsin (s : State) : Host.Outcome State Fault Refusal := commandA fxAsin s
/-- ACOS, R128. -/
def execAcos (s : State) : Host.Outcome State Fault Refusal := commandA fxAcos s

end Sys2Proof.Machine
end

