-- ==== Sys2Proof/Machine/Settings.lean ====
section
/-! DEFINITION. The settings commands NOP, CFGSET, CFGSEL (`40_config.md`). -/

namespace Sys2Proof.Machine

/-- R60: no state changes. -/
def execNop (s : State) : Host.Outcome State Fault Refusal := .next s

/-- The four validations of R61; `max > min` is a signed compare. -/
def cfgsetValid (s : State) (bank rndv satv : Nat) : Bool :=
  decide (bank < s.nbanks) && decide (s.operandA < s.operandB) && decide (rndv ≤ 1) && decide (satv ≤ 1)

/-- R61: CFGSET writes the whole bank or nothing, `RES` is the integer 1 or 0, `CFGERR` its complement. -/
def execCfgset (bank rndv satv : Nat) (s : State) : Host.Outcome State Fault Refusal :=
  if cfgsetValid s bank rndv satv then
    .next (((s.writeBank bank ⟨s.opa, s.opb, rndv == 1, satv == 1⟩).writeRes 1).setCfgerr false)
  else
    .next ((s.writeRes 0).setCfgerr true)

/-- R62: an index that names no bank selects the default settings. -/
def execCfgsel (bank : Nat) (s : State) : Host.Outcome State Fault Refusal :=
  .next (s.writeSel (if bank < s.nbanks then BitVec.ofNat 8 bank else 0xFF#8))

end Sys2Proof.Machine
end

