-- ==== Sys2Proof/Machine/Trig.lean ====
section
/-! DEFINITION. WRAPPI, WRAP180, SIN, COS, TAN (`45_trig.md`). -/

namespace Sys2Proof.Machine

/-- The single-step wrap of R115 and R116 to (-half, half]; `%` is the non-negative remainder. -/
def wrapAngle (h full x : Int) : Int := (x + h - 1) % full - (h - 1)

/-- R115. -/
def fxWrappi (x : Int) : Int := wrapAngle pi twoPi x
/-- R116. -/
def fxWrap180 (x : Int) : Int := wrapAngle d180 d360 x

/-- The series of R117 at an angle already wrapped; the running sum is unbounded until the last line. -/
def sinSeries (st : Settings) (x : Int) : Int :=
  let x2 := fxMul st x x
  let p3 := fxMul st x x2
  let p5 := fxMul st p3 x2
  let p7 := fxMul st p5 x2
  let p9 := fxMul st p7 x2
  let p11 := fxMul st p9 x2
  x - truncDiv p3 6 + truncDiv p5 120 - truncDiv p7 5040 + truncDiv p9 362880 - truncDiv p11 39916800

/-- R117. -/
def fxSin (st : Settings) (x : Int) : Int := wrap32 (sinSeries st (fxWrappi x))
/-- R118: the addition is a plain 32-bit one. -/
def fxCos (st : Settings) (x : Int) : Int := fxSin st (wrap32 (x + halfPi))
/-- R119: the divide's zero-divisor and saturation rules decide. -/
def fxTan (st : Settings) (x : Int) : Int := fxDiv st (fxSin st x) (fxCos st x)

/-- WRAPPI, R115. -/
def execWrappi (s : State) : Host.Outcome State Fault Refusal := commandA (fun _ x => fxWrappi x) s
/-- WRAP180, R116. -/
def execWrap180 (s : State) : Host.Outcome State Fault Refusal := commandA (fun _ x => fxWrap180 x) s
/-- SIN, R117. -/
def execSin (s : State) : Host.Outcome State Fault Refusal := commandA fxSin s
/-- COS, R118. -/
def execCos (s : State) : Host.Outcome State Fault Refusal := commandA fxCos s
/-- TAN, R119. -/
def execTan (s : State) : Host.Outcome State Fault Refusal := commandA fxTan s

end Sys2Proof.Machine
end

