-- ==== Sys2Proof/Syntax.lean ====
section
/-! DEFINITION. The 33 commands of R47, one constructor per row of `spec/opcode_table.json`. -/

namespace Sys2Proof

/-- A command of the unit. Only CFGSET and CFGSEL carry fields, unsigned 8-bit integers of the command word (R46, R49);
every other command takes its operands from `OPA` and `OPB` (R48). -/
inductive Instr where
  | nop
  | cfgset (bank rndv satv : Nat)
  | cfgsel (bank : Nat)
  | int2fix
  | fix2int
  | add
  | sub
  | mul
  | div
  | mod
  | abs
  | floor
  | ceil
  | round
  | sqrt
  | log2
  | ln
  | exp
  | pow
  | pinit
  | pstep
  | wrappi
  | wrap180
  | sin
  | cos
  | tan
  | atan2
  | atan
  | asin
  | acos
  | cosh
  | sinh
  | tanh
deriving DecidableEq, Repr

end Sys2Proof
end

