-- ==== Sys2Proof/Machine/Dispatch.lean ====
section
/-! DEFINITION. The command's meaning, one arm per constructor (R45, R47). -/

namespace Sys2Proof.Machine

def exec (i : Instr) (s : State) : Host.Outcome State Fault Refusal :=
  match i with
  | .nop => Sys2Proof.Machine.execNop s
  | .cfgset bank rndv satv => Sys2Proof.Machine.execCfgset bank rndv satv s
  | .cfgsel bank => Sys2Proof.Machine.execCfgsel bank s
  | .int2fix => Sys2Proof.Machine.execInt2fix s
  | .fix2int => Sys2Proof.Machine.execFix2int s
  | .add => Sys2Proof.Machine.execAdd s
  | .sub => Sys2Proof.Machine.execSub s
  | .mul => Sys2Proof.Machine.execMul s
  | .div => Sys2Proof.Machine.execDiv s
  | .mod => Sys2Proof.Machine.execMod s
  | .abs => Sys2Proof.Machine.execAbs s
  | .floor => Sys2Proof.Machine.execFloor s
  | .ceil => Sys2Proof.Machine.execCeil s
  | .round => Sys2Proof.Machine.execRound s
  | .sqrt => Sys2Proof.Machine.execSqrt s
  | .log2 => Sys2Proof.Machine.execLog2 s
  | .ln => Sys2Proof.Machine.execLn s
  | .exp => Sys2Proof.Machine.execExp s
  | .pow => Sys2Proof.Machine.execPow s
  | .pinit => Sys2Proof.Machine.execPinit s
  | .pstep => Sys2Proof.Machine.execPstep s
  | .wrappi => Sys2Proof.Machine.execWrappi s
  | .wrap180 => Sys2Proof.Machine.execWrap180 s
  | .sin => Sys2Proof.Machine.execSin s
  | .cos => Sys2Proof.Machine.execCos s
  | .tan => Sys2Proof.Machine.execTan s
  | .atan2 => Sys2Proof.Machine.execAtan2 s
  | .atan => Sys2Proof.Machine.execAtan s
  | .asin => Sys2Proof.Machine.execAsin s
  | .acos => Sys2Proof.Machine.execAcos s
  | .cosh => Sys2Proof.Machine.execCosh s
  | .sinh => Sys2Proof.Machine.execSinh s
  | .tanh => Sys2Proof.Machine.execTanh s

end Sys2Proof.Machine
end

