-- ==== Sys2Proof/WellFormed.lean ====
section
/-! DEFINITION. Which commands have a command word: the fields of CFGSET and CFGSEL fit their eight bits (R46, R52). -/

namespace Sys2Proof

/-- `k`, `r`, `s` of R52 are "each in 0 .. 255"; a command without fields is always well formed (log 9). -/
def Instr.wellFormed : Instr → Bool
  | .cfgset bank rndv satv => decide (bank < 256) && decide (rndv < 256) && decide (satv < 256)
  | .cfgsel bank => decide (bank < 256)
  | .nop | .int2fix | .fix2int | .add | .sub | .mul | .div | .mod | .abs | .floor | .ceil | .round
  | .sqrt | .log2 | .ln | .exp | .pow | .pinit | .pstep | .wrappi | .wrap180 | .sin | .cos | .tan
  | .atan2 | .atan | .asin | .acos | .cosh | .sinh | .tanh => true

end Sys2Proof
end

