-- ==== Sys2Proof/Decode.lean ====
section
/-! DEFINITION. The command word (R45, R46, R49): byte lanes (R33), the decoder (R54, total on all words), and the encoder (R52). -/

namespace Sys2Proof

/-- Why a word or a list of byte lanes is no command (R50, R36). -/
inductive DecodeError where
  /-- R50 (a): `w[7:0]` is not an `OPCODE` of R47. -/
  | undefinedOpcode (opcode : Nat)
  /-- R50 (b), (c): a field the command does not use is not zero. -/
  | unusedFieldNonzero (opcode : Nat)
  /-- A command is one 32-bit word (R45): these lanes are not four bytes. -/
  | wrongLength (bytes : Nat)
deriving DecidableEq, Repr

/-- The four byte lanes of a word, lowest address first: lane `k` carries bits [8*k+7 : 8*k] (R33). -/
def wordLanes (w : Word) : List Byte :=
  [w.extractLsb' 0 8, w.extractLsb' 8 8, w.extractLsb' 16 8, w.extractLsb' 24 8]

/-- The word four byte lanes carry (R33); any other number of lanes is no word (log 20). -/
def lanesWord : List Byte → Option Word
  | [b0, b1, b2, b3] => some (b3 ++ b2 ++ b1 ++ b0)
  | _ => none

/-- `OPCODE = w[7:0]` (R46). -/
def fieldOpcode (w : Word) : Nat := (w.extractLsb' 0 8).toNat
/-- `BANK = w[15:8]` (R49). -/
def fieldBank (w : Word) : Nat := (w.extractLsb' 8 8).toNat
/-- `RNDV = w[23:16]` (R49). -/
def fieldRndv (w : Word) : Nat := (w.extractLsb' 16 8).toNat
/-- `SATV = w[31:24]` (R49). -/
def fieldSatv (w : Word) : Nat := (w.extractLsb' 24 8).toNat

/-- The rows of R47 that use no field. -/
def plainCommands : List (Nat × Instr) :=
  [(0x00, .nop), (0x08, .int2fix), (0x09, .fix2int),
   (0x10, .add), (0x11, .sub), (0x12, .mul), (0x13, .div), (0x14, .mod),
   (0x15, .abs), (0x16, .floor), (0x17, .ceil), (0x18, .round),
   (0x20, .sqrt), (0x21, .log2), (0x22, .ln), (0x23, .exp), (0x24, .pow), (0x25, .pinit), (0x26, .pstep),
   (0x30, .wrappi), (0x31, .wrap180), (0x32, .sin), (0x33, .cos), (0x34, .tan),
   (0x35, .atan2), (0x36, .atan), (0x37, .asin), (0x38, .acos), (0x39, .cosh), (0x3A, .sinh), (0x3B, .tanh)]

/-- `decode` of R54, total on all 2^32 words. -/
def decodeWord (w : Word) : Except DecodeError Instr :=
  let op := fieldOpcode w
  if op = 0x01 then .ok (.cfgset (fieldBank w) (fieldRndv w) (fieldSatv w))
  else if op = 0x02 then
    if w.extractLsb' 16 16 ≠ 0 then .error (.unusedFieldNonzero op) else .ok (.cfgsel (fieldBank w))
  else match plainCommands.lookup op with
    | none => .error (.undefinedOpcode op)
    | some i => if w.extractLsb' 8 24 ≠ 0 then .error (.unusedFieldNonzero op) else .ok i

/-- The decoder on byte lanes: total on any bytes. -/
def decodeLanes (lanes : List Byte) : Except DecodeError Instr :=
  match lanesWord lanes with
  | some w => decodeWord w
  | none => .error (.wrongLength lanes.length)

/-- The `OPCODE` of each command, R47. -/
def opcode : Instr → Nat
  | .nop => 0x00
  | .cfgset _ _ _ => 0x01
  | .cfgsel _ => 0x02
  | .int2fix => 0x08
  | .fix2int => 0x09
  | .add => 0x10
  | .sub => 0x11
  | .mul => 0x12
  | .div => 0x13
  | .mod => 0x14
  | .abs => 0x15
  | .floor => 0x16
  | .ceil => 0x17
  | .round => 0x18
  | .sqrt => 0x20
  | .log2 => 0x21
  | .ln => 0x22
  | .exp => 0x23
  | .pow => 0x24
  | .pinit => 0x25
  | .pstep => 0x26
  | .wrappi => 0x30
  | .wrap180 => 0x31
  | .sin => 0x32
  | .cos => 0x33
  | .tan => 0x34
  | .atan2 => 0x35
  | .atan => 0x36
  | .asin => 0x37
  | .acos => 0x38
  | .cosh => 0x39
  | .sinh => 0x3A
  | .tanh => 0x3B

/-- The fields a command uses, as (`BANK`, `RNDV`, `SATV`); zero where it uses none (R46, R50). -/
def fieldsOf : Instr → Nat × Nat × Nat
  | .cfgset bank rndv satv => (bank, rndv, satv)
  | .cfgsel bank => (bank, 0, 0)
  | .nop | .int2fix | .fix2int | .add | .sub | .mul | .div | .mod | .abs | .floor | .ceil | .round
  | .sqrt | .log2 | .ln | .exp | .pow | .pinit | .pstep | .wrappi | .wrap180 | .sin | .cos | .tan
  | .atan2 | .atan | .asin | .acos | .cosh | .sinh | .tanh => (0, 0, 0)

/-- The command word (R46, R52): `OPCODE + (BANK << 8) + (RNDV << 16) + (SATV << 24)`. -/
def encode (i : Instr) : Word :=
  let (bank, rndv, satv) := fieldsOf i
  BitVec.ofNat 32 (opcode i + bank * 2 ^ 8 + rndv * 2 ^ 16 + satv * 2 ^ 24)

/-- The instruction the decoder reads from the `nbits` low bits of `w`, every bit above them 0, laid out on the byte lanes. -/
def decodeTableWord (nbits w : Nat) : Option Instr :=
  match decodeLanes (wordLanes (BitVec.ofNat 32 (w % 2 ^ nbits))) with
  | .ok i => some i
  | .error _ => none

end Sys2Proof
end

