-- ==== Sys2Proof/Machine/RegisterSpace.lean ====
section
/-! DEFINITION. The register space (`20_memory.md`): which accesses are admitted, what a read returns, what a write does. -/

namespace Sys2Proof.Machine

/-- The host's transactions on the register space (R34, R35), and reset. -/
inductive Transaction where
  | regRead (i : Nat)
  | regWrite (i : Nat) (v : Word)
  | reset
deriving DecidableEq, Repr

/-- The index of the register at byte address `addr`, where the access is aligned and within the 64 bytes at `base` (R30, R36). -/
def regIndex (base addr : Nat) : Option Nat :=
  if base ≤ addr ∧ addr < base + 4 * Config.nregs ∧ (addr - base) % 4 = 0 then some ((addr - base) / 4) else none

/-- The transaction an access is, or none where R36 refuses it: any width but 4, a misaligned address, an address outside
`BASE` .. `BASE + 63`. -/
def classify (base : Nat) : Access → Option Transaction
  | .read addr width => if width = 4 then (regIndex base addr).map .regRead else none
  | .write addr lanes =>
    match regIndex base addr, lanesWord lanes with
    | some i, some v => some (.regWrite i v)
    | _, _ => none
  | .reset => some .reset

/-- The content of register `i` (R31, R34, R37): `CMD` and the reserved indices read 0. -/
def State.readReg (s : State) (i : Nat) : Word :=
  match i with
  | 0 => s.opa
  | 1 => s.opb
  | 3 => s.res
  | 4 => s.status
  | 5 => s.acc
  | 6 => s.active.min
  | 7 => s.active.max
  | 8 => s.actCtrl
  | _ => 0

/-- The effect of `RegWrite(i, v)` for an index other than `CMD` (R35, R37): `OPA` and `OPB` store, `STATUS` clears `ILL`
on bit 0, every other write is ignored. -/
def State.writeReg (s : State) (i : Nat) (v : Word) : State :=
  match i with
  | 0 => { s with opa := v }
  | 1 => { s with opb := v }
  | 4 => s.writeStatus v
  | _ => s

/-- The index of `CMD` (R31). -/
def cmdIndex : Nat := 2

/-- The byte address of register `i` (R30). -/
def State.regAddr (s : State) (i : Nat) : Nat := s.base + 4 * i

/-- The host access `RegWrite(i, v)` on this unit's bus (R33, R35). -/
def State.regWriteAccess (s : State) (i : Nat) (v : Word) : Access := .write (s.regAddr i) (wordLanes v)

/-- The host access `RegRead(i)` on this unit's bus (R34). -/
def State.regReadAccess (s : State) (i : Nat) : Access := .read (s.regAddr i) 4

end Sys2Proof.Machine
end

