-- ==== Sys2Proof/Machine/Step.lean ====
section
/-! DEFINITION. One step: the unit performs the oldest access the host has delivered, to completion (R6, R38; log 1, log 2). -/

namespace Sys2Proof.Machine

/-- A write of `w` to `CMD` (R45, R54): the command it selects, or the report of an illegal command (R50). -/
def runCommand (w : Word) (s : State) : Host.Outcome State Fault Refusal :=
  match decodeWord w with
  | .ok i => exec i s
  | .error _ => .next s.reportIllegal

/-- One transaction on the unit's state; a command word is executed, and is not stored (R35). -/
def perform (s : State) : Transaction → Host.Outcome State Fault Refusal
  | .regRead _ => .next s
  | .regWrite i v => if i = cmdIndex then runCommand v s else .next (s.writeReg i v)
  | .reset => .next s.resetUnit

/-- What the bus carries back (R33, R34). -/
def replyTo (s : State) : Transaction → Reply
  | .regRead i => .data (wordLanes (s.readReg i))
  | .regWrite _ _ => .written
  | .reset => .none

/-- One step. With nothing pending the unit is idle and keeps its state (R164); an access the register space does not
admit is refused with a bus error and no state change (R36). -/
def step (s : State) : Host.Outcome State Fault Refusal :=
  match s.bus with
  | [] => .next s
  | a :: _ =>
    match classify s.base a with
    | none => .refused (.busError a)
    | some t => onNext (fun s' => s'.retire (replyTo s t)) (perform s t)

/-- `s` with a write to `CMD` of the word whose low `nbits` bits are `w` as the next access of the host (log 10). -/
def State.withFetchWord (s : State) (nbits w : Nat) : State :=
  { s with bus := s.regWriteAccess cmdIndex (BitVec.ofNat 32 (w % 2 ^ nbits)) :: s.bus }

end Sys2Proof.Machine
end

