-- ==== Sys2Proof/Machine/Datapath.lean ====
section
/-! DEFINITION. The datapaths the rules give beside the normative closed forms: R82, R76, R91, R120. The step does not
use them (log 18): they are what the refinement statements compare with R74, R75, R90, R115 and R116. -/

namespace Sys2Proof.Machine

/-- The partial products of R82 put together: 16-bit limbs, the high halves signed, the low halves unsigned. -/
def limbProduct (a b : Int) : Int :=
  let ah := a / 65536
  let al := a % 65536
  let bh := b / 65536
  let bl := b % 65536
  let hh := ah * bh
  let mid := ah * bl + bh * al
  let ll := al * bl
  hh * 4294967296 + mid * 65536 + ll

/-- `while dv < rem` of R76: the divisor and the result-bit marker, whose bits above 32 are lost; `dv` keeps all its bits. -/
def divAlign : Nat → Nat → Nat → Nat → Nat × Nat
  | 0, _, dv, mark => (dv, mark)
  | k + 1, rem, dv, mark => if dv < rem then divAlign k rem (2 * dv) (2 * mark % 4294967296) else (dv, mark)

/-- `while bit != 0 and rem != 0` of R76: the remainder and the quotient so far. -/
def divBits : Nat → Nat → Nat → Nat → Nat → Nat × Nat
  | 0, rem, _, _, quo => (rem, quo)
  | k + 1, rem, dv, mark, quo =>
    if mark ≠ 0 ∧ rem ≠ 0 then
      if dv ≤ rem then divBits k (2 * (rem - dv)) dv (mark / 2) (quo ||| mark)
      else divBits k (2 * rem) dv (mark / 2) quo
    else (rem, quo)

/-- The one step of R76 with the un-doubled remainder, taken when bit 31 of the aligned divisor is set:
remainder, divisor, marker, quotient. -/
def divTopStep (rem dv mark : Nat) : Nat × Nat × Nat × Nat :=
  if 2147483648 ≤ dv then
    (if dv ≤ rem then (rem - dv, dv / 2, mark / 2, mark) else (rem, dv / 2, mark / 2, 0))
  else (rem, dv, mark, 0)

/-- The magnitude of R76; `none` where the marker slid out of its 32 bits. -/
def divSerialMagnitude (st : Settings) (a b : Int) : Option Nat :=
  let (dv0, mark0) := divAlign 32 a.natAbs b.natAbs 65536
  if mark0 = 0 then none
  else
    let (rem1, dv1, mark1, quo1) := divTopStep a.natAbs dv0 mark0
    let (rem, quo) := divBits 32 rem1 dv1 mark1 quo1
    some (if st.rnd && decide (dv1 ≤ rem) then quo + 1 else quo)

/-- DIV by the bit-serial datapath of R76. -/
def fxDivSerial (st : Settings) (a b : Int) : Int :=
  if b = 0 then raw st.min
  else match divSerialMagnitude st a b with
    | none => divOverflow st (divNeg a b)
    | some m => divFinish st (divNeg a b) m

/-- The three lines of one digit of R91, on the registers `rem`, `root`, with the one-hot register at `bit`. -/
def sqrtDigit (rem root mark : Nat) : Nat × Nat :=
  if root + mark ≤ rem then (rem - (root + mark), root / 2 + mark) else (rem, root / 2)

/-- `k` digits of R91, the one-hot register starting at `4^(k-1)`: the remainder and the root. -/
def sqrtDigits : Nat → Nat → Nat → Nat × Nat
  | 0, rem, root => (rem, root)
  | k + 1, rem, root => sqrtDigits k (sqrtDigit rem root (4 ^ k)).1 (sqrtDigit rem root (4 ^ k)).2

/-- SQRT by the digit extractor of R91: pass one (16 digits) and pass two (8 digits) visit one sequence of bit pairs. -/
def fxSqrtDigits (st : Settings) (a : Int) : Int :=
  if a ≤ 0 then sentinel
  else
    let (rem, root) := sqrtDigits 24 (a.toNat * 65536) 0
    if st.rnd && decide (root < rem) then (root : Int) + 1 else (root : Int)

/-- `while x > half: x <- x - full` of R120. -/
def wrapDown (h full : Int) : Nat → Int → Int
  | 0, x => x
  | k + 1, x => if h < x then wrapDown h full k (x - full) else x

/-- `while x <= -half: x <- x + full` of R120. -/
def wrapUp (h full : Int) : Nat → Int → Int
  | 0, x => x
  | k + 1, x => if x ≤ -h then wrapUp h full k (x + full) else x

/-- The iterative wrap of R120, at most 5215 passes of either loop. -/
def wrapLoop (h full x : Int) : Int := wrapUp h full 5215 (wrapDown h full 5215 x)

end Sys2Proof.Machine
end

