-- ==== Sys2Proof/Machine/HostConversions.lean ====
section
/-! DEFINITION. The host-side conversions of `48_host_conversions.md` (R140 to R144): host software outside the block, under
settings the host reads as the active ones. The step does not use them (log 16). -/

namespace Sys2Proof.Machine

/-- R142: `sext_32(v) / 65536`. DESIGN CHOICE (log 15): `fmt` is the rounding of the host's floating-point format, which the spec
leaves open (U4). A binary format with at least 32 bits of significand holds the quotient exactly, and `fmt` leaves it as it is
(`fmt := id`); what a narrower one makes of it the spec does not say, so it is what `fmt` gives. -/
def fixedToReal (fmt : Rat → Rat) (v : Word) : Rat := fmt ((raw v : Rat) / 65536)

/-- The integer part of a rational, truncation toward zero. -/
def ratTrunc (q : Rat) : Int := Int.tdiv q.num q.den

/-- The value R141 forms before truncating: scaled, and with `RND` = 1 biased by a half away from zero. `fmt` is the rounding of
the host's floating-point format, which the spec leaves open (U4, log 15): exact arithmetic is `fmt := id`. -/
def realScaled (fmt : Rat → Rat) (rnd : Bool) (q : Rat) : Rat :=
  let t := fmt (q * 65536)
  if rnd then (if 0 ≤ q then fmt (t + 1 / 2) else fmt (t - 1 / 2)) else t

/-- R141. Outside the defined range, for a NaN and for an infinity, the pattern is the free value of `Config` (U3, log 15). -/
def realToFixed (fmt : Rat → Rat) (rnd : Bool) (f : HostReal) : Word :=
  match f with
  | .finite q =>
    let n := ratTrunc (realScaled fmt rnd q)
    if -2147483648 ≤ n ∧ n ≤ 2147483647 then word n else Config.unspecifiedNarrowing rnd f
  | .infinity _ | .nan => Config.unspecifiedNarrowing rnd f

/-- The six whitespace characters R143 skips. -/
def isBlank (c : Char) : Bool :=
  c.toNat == 32 || c.toNat == 9 || c.toNat == 10 || c.toNat == 13 || c.toNat == 11 || c.toNat == 12

/-- The value of a decimal digit; none for any other character (R143, log 21). -/
def digitValue (c : Char) : Option Nat :=
  if 48 ≤ c.toNat ∧ c.toNat ≤ 57 then some (c.toNat - 48) else none

/-- What the loop of R143 has read. -/
structure ParseState where
  ip : Nat
  count : Nat
  fp : Nat
  scale : Nat
  seen : Bool
  ovf : Bool
deriving DecidableEq, Repr

/-- One integer digit of R143: five digits and the magnitude limit, else overflow. -/
def parseIntegerDigit (neg : Bool) (p : ParseState) (d : Nat) : ParseState :=
  let ip := p.ip * 10 + d
  let tooBig := decide (5 < p.count + 1) || decide (32768 < ip) || (!neg && decide (32767 < ip))
  { p with ip := ip, count := p.count + 1, ovf := p.ovf || tooBig }

/-- One fractional digit of R143: nine are used, later ones are skipped. -/
def parseFractionDigit (p : ParseState) (d : Nat) : ParseState :=
  if p.scale < 1000000000 then { p with fp := p.fp * 10 + d, scale := p.scale * 10 } else p

/-- The loop of R143 over the characters: it stops at the first one that does not fit. -/
def parseDigits (neg : Bool) : List Char → ParseState → ParseState
  | [], p => p
  | c :: cs, p =>
    if c.toNat = 46 then (if p.seen then p else parseDigits neg cs { p with seen := true })
    else match digitValue c with
      | none => p
      | some d => parseDigits neg cs (if p.seen then parseFractionDigit p d else parseIntegerDigit neg p d)

/-- The magnitude and the sign of R143, put together through DIV. -/
def parseFinish (st : Settings) (neg : Bool) (p : ParseState) : Int :=
  let m := (p.ip : Int) * 65536 + fxDiv st p.fp p.scale
  if p.ovf then sentinel else if 2147483648 ≤ m then sentinel else if neg then -m else m

/-- R143 after the whitespace: at most one sign character, then the digits. -/
def parseSigned (st : Settings) (cs : List Char) : Int :=
  let start : ParseState := ⟨0, 0, 0, 1, false, false⟩
  match cs with
  | [] => parseFinish st false start
  | c :: rest =>
    if c.toNat = 45 then parseFinish st true (parseDigits true rest start)
    else if c.toNat = 43 then parseFinish st false (parseDigits false rest start)
    else parseFinish st false (parseDigits false (c :: rest) start)

/-- R143. -/
def stringToFixed (st : Settings) (cs : List Char) : Word := word (parseSigned st (cs.dropWhile isBlank))

/-- The decimal digits of a number, most significant first. -/
def decimal (n : Nat) : List Char := Nat.toDigits 10 n

/-- The literal text of R144 for the sentinel. -/
def overflowText : List Char := ['o', 'v', 'e', 'r', 'f', 'l', 'o', 'w']

/-- `precision` clamped to 0 .. 5 (R144). -/
def clampPrecision (precision : Int) : Nat := (min (max precision 0) 5).toNat

/-- The integer part and the digits of R144: the fraction scaled by `10^p` through MUL, carried into the integer part when it
reaches a whole unit. -/
def fixedParts (st : Settings) (p : Nat) (u : Nat) : Nat × Nat :=
  let f := (fxMul st ((u % 65536 : Nat) : Int) ((10 ^ p : Nat) : Int)).toNat
  if 10 ^ p ≤ f then (u / 65536 + 1, f - 10 ^ p) else (u / 65536, f)

/-- R144. -/
def fixedToString (st : Settings) (v : Word) (precision : Int) : List Char :=
  if raw v = sentinel then overflowText
  else
    let p := clampPrecision precision
    let (ip, f) := fixedParts st p (raw v).natAbs
    (if raw v < 0 then ['-'] else []) ++ decimal ip
      ++ (if 0 < p then '.' :: (List.replicate (p - (decimal f).length) '0' ++ decimal f) else [])

end Sys2Proof.Machine
end

