-- ==== Sys2Proof/Machine/Script.lean ====
section
/-! DEFINITION. The host-script notation of R52 and the pseudo-instructions of R53, as data, and the bus accesses each line stands for. -/

namespace Sys2Proof.Machine

/-- The register names of R31. -/
inductive RegName where
  | opa | opb | cmd | res | status | acc | actMin | actMax | actCtrl
deriving DecidableEq, Repr

/-- `index(reg)` of R52, by the map of R31. -/
def RegName.index : RegName → Nat
  | .opa => 0
  | .opb => 1
  | .cmd => 2
  | .res => 3
  | .status => 4
  | .acc => 5
  | .actMin => 6
  | .actMax => 7
  | .actCtrl => 8

/-- One line of a host script: the transactions of R52, then the pseudo-instructions of R53. -/
inductive ScriptLine where
  | wr (r : RegName) (v : Word)
  | rd (r : RegName)
  | command (i : Instr)
  | cmdw (v : Word)
  | op1 (i : Instr) (a : Word)
  | op2 (i : Instr) (a b : Word)
  | cfgdef
  | settings (k : Nat) (min max : Word) (rnd sat : Nat)
  | clrill
  | poly (x c0 : Word) (cs : List Word)
deriving DecidableEq, Repr

/-- `RegWrite(2, w)` for the word of a command (R52). -/
def State.commandAccess (s : State) (i : Instr) : Access := s.regWriteAccess cmdIndex (encode i)

/-- The PSTEP part of the POLY expansion (R53): for each coefficient, `WR OPB` and `PSTEP`. -/
def State.pstepAccesses (s : State) : List Word → List Access
  | [] => []
  | c :: cs => s.regWriteAccess 1 c :: s.commandAccess .pstep :: s.pstepAccesses cs

/-- The accesses a line stands for on this unit's bus, in order (R52, R53). -/
def State.lineAccesses (s : State) : ScriptLine → List Access
  | .wr r v => [s.regWriteAccess r.index v]
  | .rd r => [s.regReadAccess r.index]
  | .command i => [s.commandAccess i]
  | .cmdw v => [s.regWriteAccess cmdIndex v]
  | .op1 i a => [s.regWriteAccess 0 a, s.commandAccess i]
  | .op2 i a b => [s.regWriteAccess 0 a, s.regWriteAccess 1 b, s.commandAccess i]
  | .cfgdef => [s.commandAccess (.cfgsel 0xFF)]
  | .settings k min max rnd sat =>
      [s.regWriteAccess 0 min, s.regWriteAccess 1 max, s.commandAccess (.cfgset k rnd sat)]
  | .clrill => [s.regWriteAccess 4 1]
  | .poly x c0 cs =>
      [s.regWriteAccess 0 c0, s.commandAccess .pinit, s.regWriteAccess 0 x] ++ s.pstepAccesses cs

/-- The accesses of a whole script. -/
def State.scriptAccesses (s : State) (script : List ScriptLine) : List Access := script.flatMap s.lineAccesses

end Sys2Proof.Machine
end

