-- ==== Sys2Proof/Safety.lean ====
section
/-! DEFINITION. What a sound state is (R13, R15, R30, R108), and the terms the statements use. -/

namespace Sys2Proof.Machine

/-- R13: `MAX > MIN`, a signed compare. -/
def Settings.valid (b : Settings) : Bool := decide (raw b.min < raw b.max)

/-- The invariant of the unit: every bank is valid (R13), `NBANKS` is in its range (R4), `SEL` names a bank or is 0xFF (R15),
`BASE` is a multiple of 64 (R30), and a set `PSTK` goes with the sentinel in `ACC` (R108). -/
def State.sound (s : State) : Bool :=
  s.banks.all Settings.valid && decide (1 ≤ s.nbanks) && decide (s.nbanks ≤ 255)
    && (decide (s.sel.toNat < s.nbanks) || s.sel == 0xFF#8)
    && decide (s.base % 64 = 0) && (!s.pstk || s.acc == 0x80000000#32)

/-- `RES` after the command `i` is run in `s` with `a` in `OPA` and `b` in `OPB` (R10, R11): the function `i` computes under the
active settings of `s`. -/
def result (i : Instr) (s : State) (a b : Word) : Word :=
  match exec i { s with opa := a, opb := b } with
  | .next t => t.res
  | .fault _ => s.res
  | .refused _ => s.res

/-- The commands that write `RES` and nothing else (the "Writes" column of R47). -/
def writesResOnly : Instr → Bool
  | .nop | .cfgset _ _ _ | .cfgsel _ | .pinit | .pstep => false
  | .int2fix | .fix2int | .add | .sub | .mul | .div | .mod | .abs | .floor | .ceil | .round
  | .sqrt | .log2 | .ln | .exp | .pow | .wrappi | .wrap180 | .sin | .cos | .tan
  | .atan2 | .atan | .asin | .acos | .cosh | .sinh | .tanh => true

/-- The pattern `SENTINEL` (R3). -/
def sentinelWord : Word := 0x80000000#32

/-- The `OPCODE` values of R47, as the set of R54. -/
abbrev definedOpcode (op : Nat) : Prop :=
  op ≤ 0x02 ∨ (0x08 ≤ op ∧ op ≤ 0x09) ∨ (0x10 ≤ op ∧ op ≤ 0x18) ∨ (0x20 ≤ op ∧ op ≤ 0x26) ∨ (0x30 ≤ op ∧ op ≤ 0x3B)

/-- The three clauses of R50, on the bits of the word: `w[7:0]` is `w mod 2^8`, `w[31:16]` is `w / 2^16`, `w[31:8]` is `w / 2^8`. -/
abbrev illegalWord (w : Word) : Prop :=
  ¬ definedOpcode (w.toNat % 256) ∨
  (w.toNat % 256 = 2 ∧ w.toNat / 65536 ≠ 0) ∨
  (w.toNat % 256 ≠ 1 ∧ w.toNat % 256 ≠ 2 ∧ w.toNat / 256 ≠ 0)

/-- The accesses R36 admits: 32 bits wide at `BASE + 4*i`, `i` in 0 .. 15; and reset, which is no access of the host. -/
def Admitted (base : Nat) : Access → Prop
  | .read addr width => width = 4 ∧ ∃ i, i < 16 ∧ addr = base + 4 * i
  | .write addr lanes => lanes.length = 4 ∧ ∃ i, i < 16 ∧ addr = base + 4 * i
  | .reset => True

/-- The value entering stage `k` of R93's fraction loop (R94). -/
def log2Stage (st : Settings) (v : Int) : Nat → Int
  | 0 => v
  | k + 1 =>
    let q := fxMul st (log2Stage st v k) (log2Stage st v k)
    if q < 131072 then q else q / 2 + (if st.rnd then q % 2 else 0)

/-- The fraction bit stage `k` of R93 yields: 1 when the square reaches two units. -/
def log2Bit (st : Settings) (v : Int) (k : Nat) : Int :=
  if fxMul st (log2Stage st v k) (log2Stage st v k) < 131072 then 0 else 1

/-- The term of index `i` of R100's series: `|x|` at index 1, then each from the one before it. -/
def expTerm (st : Settings) (ax : Int) : Nat → Int
  | 0 => 65536
  | 1 => ax
  | i + 2 => fxMul st (expTerm st ax (i + 1)) (fxDiv st ax (((i + 2 : Nat) : Int) * 65536))

/-- The sum of R100's series up to index `i`. -/
def expSum (st : Settings) (ax : Int) : Nat → Int
  | 0 => 65536
  | 1 => fxAdd ax 65536
  | i + 2 => fxAdd (expSum st ax (i + 1)) (expTerm st ax (i + 2))

/-- R100 leaves the loop with the sentinel at index `i`. -/
abbrev ExpOverflowAt (st : Settings) (ax : Int) (i : Nat) : Prop :=
  expTerm st ax i = -2147483648 ∨ expSum st ax i = -2147483648

/-- R100's early exit holds at index `i`: the term is below 500, and the index above 15 or the term below 20. -/
abbrev ExpStopAt (st : Settings) (ax : Int) (i : Nat) : Prop :=
  expTerm st ax i < 500 ∧ (15 < i ∨ expTerm st ax i < 20)

/-- `x` divided by e to the fourth `j` times, by DIV (R103). -/
def lnDown (st : Settings) (x : Int) : Nat → Int
  | 0 => x
  | j + 1 => fxDiv st (lnDown st x j) 3578144

/-- `x` multiplied by e to the fourth `j` times, by MUL (R103). -/
def lnUp (st : Settings) (x : Int) : Nat → Int
  | 0 => x
  | j + 1 => fxMul st (lnUp st x j) 3578144

/-- The correction of R103 at a guess, at most 3.0. -/
def lnCorrection (st : Settings) (x guess : Int) : Int :=
  min (fxDiv st (wrap32 (x - fxExp st guess)) (fxExp st guess)) 196608

/-- The guess of R103 after `j` refinements; the first guess is 2.0. -/
def lnGuess (st : Settings) (x : Int) : Nat → Int
  | 0 => 131072
  | j + 1 => wrap32 (lnGuess st x j + lnCorrection st x (lnGuess st x j))

/-- One Horner step of R109 by the commands MUL and ADD under the settings of `s`: the value, and whether a product has had
the sentinel pattern. -/
def hornerStep (s : State) (x : Word) (h : Word × Bool) (c : Word) : Word × Bool :=
  if h.2 then h
  else if result .mul s h.1 x = sentinelWord then (sentinelWord, true)
  else (result .add s (result .mul s h.1 x) c, false)

/-- The recurrence of R109 over the coefficients `c0`, then `cs`. -/
def horner (s : State) (x c0 : Word) (cs : List Word) : Word × Bool := cs.foldl (hornerStep s x) (c0, false)

end Sys2Proof.Machine
end

