-- ==== Sys2Proof/Certificates/Slice0/Obligations.lean ====
section
/-! DEFINITION. The statements for the provers. `{ s with … }` in a conclusion is also the frame: every field not named is unchanged. -/

open Sys2Proof Sys2Proof.Machine

section Encoding

/-- R46, R47, R52, R54: decoding the word of a well-formed command gives that command. -/
def Obligations.DecodeOfEncodeIsTheCommand : Prop :=
  ∀ i : Instr, i.wellFormed = true → decodeWord (encode i) = .ok i

/-- R46, R47, R54: a word that decodes is the word of the command it decodes to, so no two words are one command. -/
def Obligations.EncodeOfDecodeIsTheWord : Prop :=
  ∀ (w : Word) (i : Instr), decodeWord w = .ok i → i.wellFormed = true ∧ encode i = w

/-- R50 and R54: the words the decoder rejects are those of clauses (a), (b), (c). -/
def Obligations.DecoderRejectsExactlyIllegalWords : Prop :=
  ∀ w : Word, (∃ e, decodeWord w = .error e) ↔ illegalWord w

/-- R46, R47: words written out from the spec, one or more of every family. -/
def Obligations.WordsOfEveryFamilyDecode : Prop :=
  decodeWord 0x00000000#32 = .ok .nop ∧ decodeWord 0x01000201#32 = .ok (.cfgset 2 0 1) ∧
  decodeWord 0x0000FF02#32 = .ok (.cfgsel 255) ∧ decodeWord 0x00000009#32 = .ok .fix2int ∧
  decodeWord 0x00000013#32 = .ok .div ∧ decodeWord 0x00000022#32 = .ok .ln ∧ decodeWord 0x00000026#32 = .ok .pstep ∧
  decodeWord 0x00000035#32 = .ok .atan2 ∧ decodeWord 0x0000003B#32 = .ok .tanh

end Encoding

section Machine

/-- R45, R38: when the next access writes a word to `CMD` that decodes to `i`, the step is `exec i`, the access is done and its
answer is 'written'; the same for the access that `withFetchWord` places (the bus fields are the model's, logs 1, 3, 10). -/
def Obligations.StepRunsTheDecodedCommand : Prop :=
  (∀ (s : State) (w : Word) (i : Instr) (rest : List Access),
    s.bus = s.regWriteAccess cmdIndex w :: rest → decodeWord w = .ok i →
    step s = onNext (fun t => { t with bus := rest, reply := .written }) (exec i s)) ∧
  (∀ (s : State) (w : Word) (i : Instr), decodeWord w = .ok i →
    step (s.withFetchWord 32 w.toNat) = onNext (fun t => { t with reply := .written }) (exec i s))

/-- R50: an illegal command word sets `ILL` and changes nothing else (the bus fields are the model's, logs 1, 3). -/
def Obligations.IllegalCommandSetsOnlyIll : Prop :=
  ∀ (s : State) (w : Word) (rest : List Access),
    s.bus = s.regWriteAccess cmdIndex w :: rest → illegalWord w →
    step s = .next { s with ill := true, bus := rest, reply := .written }

/-- R36: a step stops exactly on an access that is not admitted, with the bus error of that access, and never with a fault
(that a refused access ends the step is log 4). -/
def Obligations.StepStopsExactlyOnRefusedAccess : Prop :=
  (∀ (s : State) (r : Refusal),
    step s = .refused r ↔ ∃ a rest, s.bus = a :: rest ∧ ¬ Admitted s.base a ∧ r = .busError a) ∧
  (∀ (s : State) (f : Fault), step s ≠ .fault f)

/-- R150 and the "Writes" column of R47: every command, with any fields and in any state, completes, and changes only what its
row names. -/
def Obligations.EveryCommandCompletesWithItsFrame : Prop :=
  ∀ (i : Instr) (s : State), ∃ t : State, exec i s = .next t ∧
    t.opa = s.opa ∧ t.opb = s.opb ∧ t.base = s.base ∧ t.bus = s.bus ∧ t.reply = s.reply ∧ t.ill = s.ill ∧
    t.nbanks = s.nbanks ∧
    ((i = .nop ∨ ∃ k, i = .cfgsel k) → t.res = s.res) ∧
    ((i ≠ .pinit ∧ i ≠ .pstep) → t.acc = s.acc ∧ t.pstk = s.pstk) ∧
    ((∀ k r v, i ≠ .cfgset k r v) → t.banks = s.banks ∧ t.cfgerr = s.cfgerr) ∧
    ((∀ k, i ≠ .cfgsel k) → t.sel = s.sel) ∧
    (writesResOnly i = true → t = { s with res := t.res })

/-- R175: a command executed a second time at once leaves the state as the first time left it, for every command but PSTEP. -/
def Obligations.RepeatedCommandIsHarmless : Prop :=
  ∀ (i : Instr) (s : State), i ≠ .pstep → ∃ t : State, exec i s = .next t ∧ exec i t = .next t

/-- R13, R15, R30, R108: every step keeps the invariant (valid banks, `NBANKS` in range, a legal `SEL`, an aligned `BASE`,
the sentinel in `ACC` while `PSTK` is set). -/
def Obligations.EveryStepKeepsTheStateSound : Prop :=
  ∀ s t : State, s.sound = true → step s = .next t → t.sound = true

/-- R13, R19: the reset state has the invariant (with 4 banks at address 0, logs 6, 7). -/
def Obligations.ResetStateIsSound : Prop := State.reset.sound = true

/-- R19: after reset every piece of state has the value of the table, and the views read as it says
(`bus` and `reply` are the model's own, logs 1, 3; reset comes between accesses, log 5). -/
def Obligations.ResetEventGivesTheResetTable : Prop :=
  ∀ (s : State) (rest : List Access), s.bus = .reset :: rest → s.nbanks ≤ 255 →
    ∃ t : State, step s = .next t ∧
      t = { opa := 0x00000000#32, opb := 0x00000000#32, res := 0x00000000#32, acc := 0x00000000#32,
            banks := List.replicate s.nbanks ⟨0x80000001#32, 0x7FFFFFFF#32, true, false⟩, sel := 0xFF#8,
            ill := false, cfgerr := false, pstk := false, base := s.base, bus := rest, reply := .none } ∧
      t.readReg 6 = 0x80000001#32 ∧ t.readReg 7 = 0x7FFFFFFF#32 ∧ t.readReg 8 = 0x0000FF01#32

/-- R19, R165, R167 at `State.reset`: the sixteen registers read as the spec lists them (the model's choice of 4 banks, log 6,
shows in the bank list only). -/
def Obligations.ResetRegistersRead : Prop :=
  (List.range 16).map State.reset.readReg =
    [0, 0, 0, 0, 0, 0, 0x80000001#32, 0x7FFFFFFF#32, 0x0000FF01#32, 0, 0, 0, 0, 0, 0, 0] ∧
  State.reset.banks = List.replicate 4 ⟨0x80000001#32, 0x7FFFFFFF#32, true, false⟩

/-- R164 with log 2: with nothing pending the unit keeps all its state. -/
def Obligations.IdleUnitKeepsItsState : Prop :=
  ∀ s : State, s.bus = [] → step s = .next s

/-- R31, R33, R34: a read of register `i` returns its content on little-endian lanes and changes no state of the unit
(`bus` and `reply` are the model's own, logs 1, 3). -/
def Obligations.RegReadReturnsTheContentAndChangesNothing : Prop :=
  ∀ (s : State) (i : Nat) (rest : List Access), i < 16 → s.bus = .read (s.base + 4 * i) 4 :: rest →
    ∃ v : Word,
      step s = .next { s with bus := rest, reply := .data (wordLanes v) } ∧
      (i = 0 → v = s.opa) ∧ (i = 1 → v = s.opb) ∧ (i = 2 → v = 0) ∧ (i = 3 → v = s.res) ∧ (i = 4 → v = s.status) ∧
      (i = 5 → v = s.acc) ∧ (i = 6 → v = s.active.min) ∧ (i = 7 → v = s.active.max) ∧ (i = 8 → v = s.actCtrl) ∧
      (9 ≤ i → v = 0)

/-- R35: what a register write other than a command does. The word is the one its little-endian lanes carry (R33;
`bus` and `reply` are the model's own, logs 1, 3). -/
def Obligations.RegWriteActsByIndex : Prop :=
  ∀ (s : State) (i : Nat) (b0 b1 b2 b3 : Byte) (rest : List Access), i < 16 → i ≠ 2 →
    s.bus = .write (s.base + 4 * i) [b0, b1, b2, b3] :: rest →
    step s =
      (if i = 0 then .next { s with opa := b3 ++ b2 ++ b1 ++ b0, bus := rest, reply := .written }
       else if i = 1 then .next { s with opb := b3 ++ b2 ++ b1 ++ b0, bus := rest, reply := .written }
       else if i = 4 then .next { s with ill := s.ill && !b0.getLsbD 0, bus := rest, reply := .written }
       else .next { s with bus := rest, reply := .written })

/-- R37: `CMD` and the reserved indices read 0; writes to read-only and reserved registers are ignored
(`bus` and `reply` are the model's own, logs 1, 3). -/
def Obligations.ReservedAndReadOnlyRegisters : Prop :=
  (∀ (s : State) (i : Nat) (rest : List Access), (i = 2 ∨ (9 ≤ i ∧ i ≤ 15)) →
    s.bus = s.regReadAccess i :: rest →
    step s = .next { s with bus := rest, reply := .data [0, 0, 0, 0] }) ∧
  (∀ (s : State) (i : Nat) (v : Word) (rest : List Access),
    (i = 3 ∨ i = 5 ∨ i = 6 ∨ i = 7 ∨ i = 8 ∨ (9 ≤ i ∧ i ≤ 15)) →
    s.bus = s.regWriteAccess i v :: rest →
    step s = .next { s with bus := rest, reply := .written })

/-- R15, R16: the bits of `STATUS` and of `ACT_CTRL`. -/
def Obligations.StatusAndActCtrlBits : Prop :=
  ∀ (s : State) (k : Nat), k < 32 →
    (s.status.getLsbD k = if k = 0 then s.ill else if k = 1 then s.cfgerr else if k = 2 then s.pstk else false) ∧
    (s.actCtrl.getLsbD k =
      if k = 0 then s.active.rnd else if k = 1 then s.active.sat
      else if 8 ≤ k ∧ k < 16 then s.sel.getLsbD (k - 8) else false)

/-- R38 (a): a read of `RES` delivered right after a command returns that command's result
(`bus` and `reply` are the model's own, logs 1, 3). -/
def Obligations.ReadAfterCommandReturnsItsResult : Prop :=
  ∀ (s : State) (w : Word) (i : Instr) (rest : List Access), decodeWord w = .ok i →
    s.bus = s.regWriteAccess cmdIndex w :: s.regReadAccess 3 :: rest →
    ∃ t : State, exec i s = .next t ∧
      Host.Core.run Sys2Proof.core 2 s = .next { t with bus := rest, reply := .data (wordLanes t.res) }

/-- R63: the settings fields a command does not read cannot change what it writes to `RES`. -/
def Obligations.UnreadSettingsCannotChangeResults : Prop :=
  ∀ (s t : State) (a b : Word),
    (∀ i ∈ [Instr.int2fix, .add, .sub, .mod, .abs, .floor, .ceil, .round, .wrappi, .wrap180, .pinit],
      result i s a b = result i t a b) ∧
    (∀ k r v, s.nbanks = t.nbanks → result (.cfgset k r v) s a b = result (.cfgset k r v) t a b) ∧
    (∀ i, (i = .nop ∨ ∃ k, i = .cfgsel k) → s.res = t.res → result i s a b = result i t a b) ∧
    (s.active.rnd = t.active.rnd →
      (∀ i ∈ [Instr.fix2int, .mul, .sqrt, .sin, .cos], result i s a b = result i t a b) ∧
      (s.acc = t.acc → s.pstk = t.pstk → result .pstep s a b = result .pstep t a b) ∧
      (s.active.sat = t.active.sat → s.active.min = t.active.min → result .log2 s a b = result .log2 t a b))

end Machine

section Settings

/-- R61, for every field value: success writes the bank, failure writes nothing but the report. -/
def Obligations.CfgsetWritesTheBankOrReports : Prop :=
  ∀ (s : State) (bank rndv satv : Nat),
    exec (.cfgset bank rndv satv) s =
      (if bank < s.banks.length ∧ s.opa.toInt < s.opb.toInt ∧ rndv ≤ 1 ∧ satv ≤ 1 then
        .next { s with banks := s.banks.set bank ⟨s.opa, s.opb, decide (rndv = 1), decide (satv = 1)⟩,
                       res := 1#32, cfgerr := false }
      else .next { s with res := 0#32, cfgerr := true })

/-- R60 and R62: NOP changes nothing; CFGSEL writes `SEL` alone, an index that names no bank selecting the default. -/
def Obligations.NopAndCfgselFollowTheirRules : Prop :=
  ∀ (s : State) (bank : Nat),
    exec .nop s = .next s ∧
    exec (.cfgsel bank) s =
      .next { s with sel := if bank < s.banks.length then BitVec.ofNat 8 bank else 0xFF#8 }

/-- R15 with R61 (c), (d): a CFGSET to the active bank changes the active settings at once, any other CFGSET leaves them. -/
def Obligations.CfgsetActsOnTheActiveSettingsAtOnce : Prop :=
  ∀ (s : State) (bank rndv satv : Nat), ∃ t : State,
    exec (.cfgset bank rndv satv) s = .next t ∧
    t.active =
      if bank = s.sel.toNat ∧ bank < s.nbanks ∧ raw s.opa < raw s.opb ∧ rndv ≤ 1 ∧ satv ≤ 1
      then ⟨s.opa, s.opb, decide (rndv = 1), decide (satv = 1)⟩ else s.active

/-- R15 and R62: after CFGSEL the active settings are the bank's, or the default settings of R14, and the three `ACT_*` registers show them. -/
def Obligations.SelectedBankIsActiveAndVisible : Prop :=
  ∀ (s : State) (k : Nat) (b : Settings), s.nbanks ≤ 255 →
    (k < s.nbanks → s.banks[k]? = some b) → (s.nbanks ≤ k → b = ⟨0x80000001#32, 0x7FFFFFFF#32, true, false⟩) →
    ∃ t : State, exec (.cfgsel k) s = .next t ∧ t.active = b ∧
      t.readReg 6 = b.min ∧ t.readReg 7 = b.max ∧
      t.readReg 8 = 0#16 ++ (if k < s.nbanks then BitVec.ofNat 8 k else 0xFF#8) ++ 0#6
        ++ BitVec.ofBool b.sat ++ BitVec.ofBool b.rnd

end Settings

section Conversion

/-- R65 and R66: INT2FIX shifts in sixteen zeros; FIX2INT rounds half away from zero, or is the arithmetic shift. -/
def Obligations.IntegerConversionsFollowTheirRules : Prop :=
  ∀ s : State,
    exec .int2fix s = .next { s with res := s.opa.extractLsb' 0 16 ++ 0#16 } ∧
    exec .fix2int s = .next { s with res := (
      if s.active.rnd then BitVec.ofInt 32 (s.opa.toInt.sign * ((s.opa.toInt.natAbs + 32768) / 65536 : Nat))
      else s.opa.sshiftRight 16) }

/-- R67. -/
def Obligations.Fix2intUndoesInt2fix : Prop :=
  ∀ (s : State) (i : Int) (b : Word), -32768 ≤ i → i ≤ 32767 →
    result .fix2int s (result .int2fix s (BitVec.ofInt 32 i) b) b = BitVec.ofInt 32 i

end Conversion

section Arithmetic

/-- R72 and R73 in their closed forms: the exact sum or difference, or the sentinel; `SAT` has no effect. -/
def Obligations.AddAndSubAreExactOrSentinel : Prop :=
  ∀ s : State,
    exec .add s = .next { s with res := (
      if -2147483648 ≤ s.opa.toInt + s.opb.toInt ∧ s.opa.toInt + s.opb.toInt ≤ 2147483647
      then s.opa + s.opb else 0x80000000#32) } ∧
    exec .sub s = .next { s with res := (
      if -2147483648 ≤ s.opa.toInt - s.opb.toInt ∧ s.opa.toInt - s.opb.toInt ≤ 2147483647
      then s.opa - s.opb else 0x80000000#32) }

/-- R73 (e): SUB undoes an ADD that does not overflow. -/
def Obligations.SubUndoesAdd : Prop :=
  ∀ (s : State) (x y : Word), -2147483648 ≤ x.toInt + y.toInt → x.toInt + y.toInt ≤ 2147483647 →
    result .sub s (result .add s x y) y = x

/-- R74: the exact product, tested against 48 signed bits, rounded half away from zero or toward minus infinity. -/
def Obligations.MulRoundsTheExactProduct : Prop :=
  ∀ (s : State) (p r : Int), p = s.opa.toInt * s.opb.toInt →
    r = (if s.active.rnd then p.sign * ((p.natAbs + 32768) / 65536 : Nat) else p / 65536) →
    exec .mul s = .next { s with res := (
      if -140737488355328 ≤ p ∧ p < 140737488355328 ∧ r ≤ 2147483647 then BitVec.ofInt 32 r else 0x80000000#32) }

/-- R82: the limb datapath, which the step does not use (log 18), forms the exact product. -/
def Obligations.LimbProductIsExact : Prop :=
  ∀ a b : Word, limbProduct (raw a) (raw b) = raw a * raw b

/-- R75: `MIN` for a zero divisor; else the magnitude, to nearest with ties up or truncated, the sign of the operands, and
the sentinel or a bound from magnitude 2^31 on. -/
def Obligations.DivIsTheSignedRoundedQuotient : Prop :=
  ∀ (s : State) (m : Nat) (neg : Bool),
    m = (if s.active.rnd then (2 * (s.opa.toInt.natAbs * 65536) + s.opb.toInt.natAbs) / (2 * s.opb.toInt.natAbs)
         else s.opa.toInt.natAbs * 65536 / s.opb.toInt.natAbs) →
    neg = (s.opa.msb != s.opb.msb) →
    exec .div s = .next { s with res := (
      if s.opb = 0 then s.active.min
      else if m < 2147483648 then (if neg then -(BitVec.ofNat 32 m) else BitVec.ofNat 32 m)
      else if s.active.sat then (if neg then s.active.min else s.active.max)
      else 0x80000000#32) }

/-- R76: the bit-serial datapath, which the step does not use (log 18), gives the result of R75 for every operand pair and settings. -/
def Obligations.DivDatapathRefinesDiv : Prop :=
  ∀ (st : Settings) (a b : Word), fxDivSerial st (raw a) (raw b) = fxDiv st (raw a) (raw b)

/-- R77: the remainder of truncating division, pinned by its size, its residue and its sign; the sentinel for a zero divisor. -/
def Obligations.ModIsTheTruncatingRemainder : Prop :=
  ∀ s : State,
    (s.opb = 0 → exec .mod s = .next { s with res := 0x80000000#32 }) ∧
    (s.opb ≠ 0 → ∃ r : Int, exec .mod s = .next { s with res := BitVec.ofInt 32 r } ∧
      r.natAbs < s.opb.toInt.natAbs ∧ s.opb.toInt ∣ s.opa.toInt - r ∧
      (0 ≤ s.opa.toInt → 0 ≤ r) ∧ (s.opa.toInt ≤ 0 → r ≤ 0))

/-- R78. -/
def Obligations.AbsNegatesNegatives : Prop :=
  ∀ s : State, exec .abs s = .next { s with res := if s.opa.msb then -s.opa else s.opa }

/-- R79, R80, R81: the integer-valued number below (FLOOR), above (CEIL), nearest with ties toward plus infinity (ROUND), the
last two wrapped to 32 bits; no setting is read. -/
def Obligations.FloorCeilRoundGiveTheNearbyInteger : Prop :=
  ∀ s : State, ∃ f c r : Int,
    exec .floor s = .next { s with res := BitVec.ofInt 32 (f * 65536) } ∧
    f * 65536 ≤ s.opa.toInt ∧ s.opa.toInt < (f + 1) * 65536 ∧
    exec .ceil s = .next { s with res := BitVec.ofInt 32 (c * 65536) } ∧
    s.opa.toInt ≤ c * 65536 ∧ (c - 1) * 65536 < s.opa.toInt ∧
    exec .round s = .next { s with res := BitVec.ofInt 32 (r * 65536) } ∧
    r * 65536 - 32768 ≤ s.opa.toInt ∧ s.opa.toInt < r * 65536 + 32768

end Arithmetic

section SqrtLog2

/-- R90: the sentinel for a non-positive operand; else the square root rounded down, or to nearest with `RND` = 1. -/
def Obligations.SqrtIsTheRoundedRoot : Prop :=
  ∀ s : State,
    (s.opa.toInt ≤ 0 → exec .sqrt s = .next { s with res := 0x80000000#32 }) ∧
    (0 < s.opa.toInt → ∃ r : Nat, exec .sqrt s = .next { s with res := BitVec.ofNat 32 r } ∧
      256 ≤ r ∧ r ≤ 0x00B504F3 ∧
      (s.active.rnd = false → r * r ≤ s.opa.toNat * 65536 ∧ s.opa.toNat * 65536 < (r + 1) * (r + 1)) ∧
      (s.active.rnd = true →
        (2 * r - 1) * (2 * r - 1) < 4 * (s.opa.toNat * 65536) ∧ 4 * (s.opa.toNat * 65536) < (2 * r + 1) * (2 * r + 1)))

/-- R91: the digit extractor, which the step does not use (log 18), gives the result of R90 for every operand and settings. -/
def Obligations.SqrtDatapathRefinesSqrt : Prop :=
  ∀ (st : Settings) (a : Word), fxSqrtDigits st (raw a) = fxSqrt st (raw a)

/-- R93, the overflow cases: a non-positive operand, and the two whose reciprocal does not fit. -/
def Obligations.Log2OverflowsToMinOrSentinel : Prop :=
  ∀ s : State, s.opa.toInt ≤ 2 →
    exec .log2 s = .next { s with res := if s.active.sat then s.active.min else 0x80000000#32 }

/-- R93, an operand below one unit: minus the logarithm of the reciprocal, which is DIV's rounded magnitude. -/
def Obligations.Log2BelowOneNegatesTheReciprocal : Prop :=
  ∀ (s : State) (m : Nat), 2 < s.opa.toInt → s.opa.toInt < 65536 →
    m = (if s.active.rnd then (2 * 4294967296 + s.opa.toNat) / (2 * s.opa.toNat) else 4294967296 / s.opa.toNat) →
    exec .log2 s = .next { s with res := -(result .log2 s (BitVec.ofNat 32 m) s.opb) }

/-- R93, an operand of two units or more: one more than the logarithm of the halved operand, the dropped bit added back with `RND` = 1. -/
def Obligations.Log2HalvingAddsOne : Prop :=
  ∀ s : State, 131072 ≤ s.opa.toInt →
    exec .log2 s = .next { s with res := (
      result .log2 s (BitVec.ofNat 32 (s.opa.toNat / 2 + (if s.active.rnd then s.opa.toNat % 2 else 0))) s.opb
        + 0x00010000#32) }

/-- R93, an operand of at least one and below two units: 16 fraction bits, one per squaring stage, and with `RND` = 1 the
final rounding check of a 17th square. -/
def Obligations.Log2FractionBits : Prop :=
  ∀ (s : State) (x : Int), x = s.opa.toInt → 65536 ≤ x → x < 131072 →
    exec .log2 s = .next { s with res := (BitVec.ofInt 32
      ((Finset.range 16).sum (fun k => log2Bit s.active x k * 2 ^ (15 - k))
        + (if s.active.rnd then log2Bit s.active x 16 else 0))) }

/-- R93 (d): exact powers of two give exact integers, under every settings record. -/
def Obligations.Log2OfPowersOfTwoIsExact : Prop :=
  ∀ (s : State) (k : Nat), 2 ≤ k → k ≤ 30 → s.opa = BitVec.ofNat 32 (2 ^ k) →
    exec .log2 s = .next { s with res := BitVec.ofInt 32 (((k : Int) - 16) * 65536) }

/-- R93: `log2core` returns 0 .. 0x000F0000, so LOG2 of one unit or more lies in 0 .. 15.0. -/
def Obligations.Log2OfOneOrMoreIsBounded : Prop :=
  ∀ s : State, 65536 ≤ s.opa.toInt →
    ∃ r : Nat, exec .log2 s = .next { s with res := BitVec.ofNat 32 r } ∧ r ≤ 0x000F0000

end SqrtLog2

section ExpLnPowPoly

/-- R100: shortcuts, clamps, and the series with its early exit, its sentinel exits and the reciprocal of a negative operand. -/
def Obligations.ExpFollowsTheSeries : Prop :=
  ∀ (s : State) (x : Int) (ax : Int), x = s.opa.toInt → ax = x.natAbs →
    (x = 0 → exec .exp s = .next { s with res := 0x00010000#32 }) ∧
    (x = 65536 → exec .exp s = .next { s with res := 0x0002B7E1#32 }) ∧
    (681391 ≤ x → exec .exp s = .next { s with res := s.active.max }) ∧
    (x ≤ -681391 → exec .exp s = .next { s with res := 0#32 }) ∧
    (x ≠ 0 → x ≠ 65536 → -681391 < x → x < 681391 →
      ∃ n : Nat, 2 ≤ n ∧ n ≤ 29 ∧
        (∀ i, 2 ≤ i → i < n → ¬ ExpOverflowAt s.active ax i ∧ ¬ ExpStopAt s.active ax i) ∧
        (n = 29 ∨ ExpOverflowAt s.active ax n ∨ ExpStopAt s.active ax n) ∧
        (ExpOverflowAt s.active ax n → exec .exp s = .next { s with res := 0x80000000#32 }) ∧
        (¬ ExpOverflowAt s.active ax n → exec .exp s = .next { s with res := (BitVec.ofInt 32
          (if x < 0 then fxDiv s.active 65536 (expSum s.active ax n) else expSum s.active ax n)) }))

/-- R103: the sentinel, or the guess plus the scaling: `m` divisions and `p` multiplications by e to the fourth bring the operand
into [1.0, 100.0], and `n` refinements, at most ten, end at the first correction of at most one LSB. -/
def Obligations.LnRefinesTheReducedOperand : Prop :=
  ∀ (s : State) (x : Int), x = s.opa.toInt →
    (x ≤ 0 → exec .ln s = .next { s with res := 0x80000000#32 }) ∧
    (0 < x → ∃ (m p n : Nat) (y : Int),
      m ≤ 2 ∧ (∀ j, j < m → 6553600 < lnDown s.active x j) ∧ lnDown s.active x m ≤ 6553600 ∧
      p ≤ 3 ∧ (∀ j, j < p → lnUp s.active (lnDown s.active x m) j < 65536) ∧
      y = lnUp s.active (lnDown s.active x m) p ∧ 65536 ≤ y ∧ y ≤ 6553600 ∧
      1 ≤ n ∧ n ≤ 10 ∧
      (∀ j, j + 1 < n → 1 < (lnCorrection s.active y (lnGuess s.active y j)).natAbs) ∧
      (n < 10 → (lnCorrection s.active y (lnGuess s.active y (n - 1))).natAbs ≤ 1) ∧
      exec .ln s = .next { s with res := (
        BitVec.ofInt 32 (lnGuess s.active y n + (4 * (m : Int) - 4 * (p : Int)) * 65536)) })

/-- R105, the integer path: exponent 0 gives 1.0, and each further unit of the exponent multiplies once more by the base,
until the sentinel pattern, which stays. -/
def Obligations.PowMultipliesForIntegerExponents : Prop :=
  ∀ s : State,
    (s.opb = 0 → exec .pow s = .next { s with res := 0x00010000#32 }) ∧
    (∀ n : Nat, n < 32767 → s.opb = BitVec.ofNat 32 ((n + 1) * 65536) →
      exec .pow s = .next { s with res := (
        if result .pow s s.opa (BitVec.ofNat 32 (n * 65536)) = 0x80000000#32 then 0x80000000#32
        else result .mul s s.opa (result .pow s s.opa (BitVec.ofNat 32 (n * 65536)))) })

/-- R105, the general path: EXP of MUL of the exponent and LN of ABS of the base, the sentinel where a step gives it, negated
for a negative base. -/
def Obligations.PowComposesExpMulLnOtherwise : Prop :=
  ∀ (s : State) (l t e : Word), (s.opb.toInt < 0 ∨ s.opb.toNat % 65536 ≠ 0) →
    l = result .ln s (result .abs s s.opa s.opb) s.opb → t = result .mul s s.opb l → e = result .exp s t s.opb →
    exec .pow s = .next { s with res := (
      if l = 0x80000000#32 ∨ t = 0x80000000#32 ∨ e = 0x80000000#32 then 0x80000000#32
      else if s.opa.toInt < 0 then -e else e) }

/-- R107 and R108: PINIT loads the accumulator and clears `PSTK`; PSTEP multiplies by `OPA` and adds `OPB`, only a product with
the sentinel pattern sticking. -/
def Obligations.PinitAndPstepFollowTheirRules : Prop :=
  ∀ (s : State) (t : Word), t = result .mul s s.acc s.opa →
    exec .pinit s = .next { s with acc := s.opa, pstk := false, res := s.opa } ∧
    exec .pstep s =
      (if s.pstk then .next { s with res := s.acc }
       else if t = 0x80000000#32 then .next { s with acc := 0x80000000#32, pstk := true, res := 0x80000000#32 }
       else .next { s with acc := result .add s t s.opb, res := result .add s t s.opb })

/-- R109 on the POLY line of R53: the whole sequence of accesses leaves the Horner value in `RES` and `ACC`
(`bus` and `reply` are the model's own, logs 1, 3). -/
def Obligations.PolyScriptEvaluatesHorner : Prop :=
  ∀ (s : State) (x c0 : Word) (cs : List Word) (rest : List Access),
    s.bus = s.lineAccesses (.poly x c0 cs) ++ rest →
    Host.Core.run Sys2Proof.core (3 + 2 * cs.length) s =
      .next { s with opa := x, opb := cs.getLastD s.opb, acc := (horner s x c0 cs).1, res := (horner s x c0 cs).1,
                     pstk := (horner s x c0 cs).2, bus := rest, reply := .written }

end ExpLnPowPoly

section Trig

/-- R115 and R116: the one angle of the half-open range (-half, half] a whole number of turns away. -/
def Obligations.WrapsLandInTheHalfOpenTurn : Prop :=
  ∀ s : State,
    (∃ r : Int, exec .wrappi s = .next { s with res := BitVec.ofInt 32 r } ∧
      -205887 < r ∧ r ≤ 205887 ∧ 411774 ∣ r - s.opa.toInt) ∧
    (∃ r : Int, exec .wrap180 s = .next { s with res := BitVec.ofInt 32 r } ∧
      -11796480 < r ∧ r ≤ 11796480 ∧ 23592960 ∣ r - s.opa.toInt)

/-- R120: the iterative form, which the step does not use (log 18), gives the same result as R115 and R116 for every operand. -/
def Obligations.WrapLoopRefinesTheWrap : Prop :=
  ∀ a : Word, wrapLoop pi twoPi (raw a) = fxWrappi (raw a) ∧ wrapLoop d180 d360 (raw a) = fxWrap180 (raw a)

/-- R117: the six-term series on the wrapped angle, by MUL and truncating division. -/
def Obligations.SinIsTheSixTermSeries : Prop :=
  ∀ (s : State) (x x2 p3 p5 p7 p9 p11 : Word),
    x = result .wrappi s s.opa s.opb → x2 = result .mul s x x → p3 = result .mul s x x2 → p5 = result .mul s p3 x2 →
    p7 = result .mul s p5 x2 → p9 = result .mul s p7 x2 → p11 = result .mul s p9 x2 →
    exec .sin s = .next { s with res := (BitVec.ofInt 32
      (x.toInt - p3.toInt.tdiv 6 + p5.toInt.tdiv 120 - p7.toInt.tdiv 5040 + p9.toInt.tdiv 362880
        - p11.toInt.tdiv 39916800)) }

/-- R118 and R119: COS is SIN of the operand plus `HALF_PI` (a plain addition), TAN is DIV of SIN and COS. -/
def Obligations.CosAndTanAreBuiltOnSin : Prop :=
  ∀ s : State,
    exec .cos s = .next { s with res := result .sin s (s.opa + 0x00019220#32) s.opb } ∧
    exec .tan s = .next { s with res := (
      result .div s (result .sin s s.opa s.opb) (result .cos s s.opa s.opb)) }

end Trig

section InverseTrig

/-- R125: the ratio and the base angle by the sign of `x`, the cubic correction by MUL, negated for a negative `y`. -/
def Obligations.Atan2IsTheCubicApproximation : Prop :=
  ∀ (s : State) (ay r r3 angle : Word),
    ay = (if s.opa.msb then -s.opa else s.opa) →
    r = (if s.opb.msb then result .div s (s.opb + ay) (ay - s.opb) else result .div s (s.opb - ay) (s.opb + ay)) →
    r3 = result .mul s (result .mul s r r) r →
    angle = (if s.opb.msb then 0x00025B30#32 else 0x0000C910#32)
      + result .mul s 0x00003240#32 r3 - result .mul s 0x0000FB50#32 r →
    exec .atan2 s = .next { s with res := if s.opa.msb then -angle else angle }

/-- R126, R127, R128: ATAN is ATAN2 with 1.0; ASIN is 0 outside [-1, 1], else ATAN of DIV by SQRT; ACOS subtracts ASIN from `HALF_PI`. -/
def Obligations.AtanAsinAcosCompose : Prop :=
  ∀ s : State,
    exec .atan s = .next { s with res := result .atan2 s s.opa 0x00010000#32 } ∧
    exec .asin s = .next { s with res := (
      if 65536 < s.opa.toInt ∨ s.opa.toInt < -65536 then 0#32
      else result .atan s (result .div s s.opa
        (result .sqrt s (0x00010000#32 - result .mul s s.opa s.opa) s.opb)) s.opb) } ∧
    exec .acos s = .next { s with res := 0x00019220#32 - result .asin s s.opa s.opb }

/-- R126 (d): ATAN is odd where the sums of R125 do not wrap. -/
def Obligations.AtanIsOdd : Prop :=
  ∀ (s : State) (x b : Word), -2147418112 < x.toInt → x.toInt < 2147418112 →
    result .atan s (-x) b = -(result .atan s x b)

end InverseTrig

section Hyperbolic

/-- R135, R136, R137: the shortcuts, and the combinations of EXP at the operand and at its negation. -/
def Obligations.HyperbolicsCombineTwoExponentials : Prop :=
  ∀ (s : State) (x : Int) (ep en : Word), x = s.opa.toInt →
    ep = result .exp s s.opa s.opb → en = result .exp s (-s.opa) s.opb →
    exec .cosh s = .next { s with res := (
      if x = 0 then 0x00010000#32 else if 681391 ≤ x ∨ x ≤ -681391 then s.active.max
      else if ep = 0x80000000#32 ∨ en = 0x80000000#32 then 0x80000000#32
      else BitVec.ofInt 32 ((ep.toInt + en.toInt) / 2)) } ∧
    exec .sinh s = .next { s with res := (
      if x = 0 then 0#32 else if 681391 ≤ x then s.active.max else if x ≤ -681391 then s.active.min
      else if ep = 0x80000000#32 ∨ en = 0x80000000#32 then 0x80000000#32
      else BitVec.ofInt 32 ((ep.toInt - en.toInt) / 2)) } ∧
    exec .tanh s = .next { s with res := (
      if x = 0 then 0#32 else if 425984 < x then 0x00010000#32 else if x < -425984 then 0xFFFF0000#32
      else result .div s (ep - en) (ep + en)) }

/-- R135 (e): COSH is even but for the sentinel operand. -/
def Obligations.CoshIsEven : Prop :=
  ∀ (s : State) (x b : Word), x ≠ 0x80000000#32 → result .cosh s (-x) b = result .cosh s x b

end Hyperbolic

section HostConversions

/-- R142 with R141, in exact arithmetic (a format that rounds nothing, log 15): within the defined range the round trip of a
real loses less than one LSB. -/
def Obligations.RealRoundTripLosesLessThanOneLsb : Prop :=
  ∀ (rnd : Bool) (q : Rat),
    -2147483648 ≤ ratTrunc (realScaled id rnd q) → ratTrunc (realScaled id rnd q) ≤ 2147483647 →
    |fixedToReal id (realToFixed id rnd (.finite q)) - q| < 1 / 65536

end HostConversions
end

