-- ==== Sys2Proof/Laws/Ops.lean ====
section
/-! SUPPORT. What the shared operations can do: the notation of `00_scope.md` section 7, the lanes of a word, the operand forms. -/

namespace Sys2Proof.Machine

/-- A raw integer is in -2^31 .. 2^31-1 (R2). -/
theorem raw_bounds (w : Word) : -2147483648 ≤ raw w ∧ raw w ≤ 2147483647 := by
  have h1 := BitVec.le_toInt w
  have h2 := BitVec.toInt_lt (x := w)
  simp only [raw]
  norm_num at h1 h2
  omega

@[simp] theorem word_raw (w : Word) : word (raw w) = w := by simp [word, raw]

/-- `wrap32` is the balanced remainder modulo 2^32. -/
theorem wrap32_eq (v : Int) : wrap32 v = v.bmod 4294967296 := by
  simp [wrap32, raw, word, BitVec.toInt_ofInt]

@[simp] theorem raw_word (v : Int) : raw (word v) = wrap32 v := rfl

theorem wrap32_bounds (v : Int) : -2147483648 ≤ wrap32 v ∧ wrap32 v ≤ 2147483647 := raw_bounds _

/-- `wrap32` changes nothing that fits. -/
theorem wrap32_of_range {v : Int} (h1 : -2147483648 ≤ v) (h2 : v ≤ 2147483647) : wrap32 v = v := by
  rw [wrap32_eq, Int.bmod_eq_of_le] <;> omega

/-- `wrap32` changes a value by a multiple of 2^32 only. -/
theorem wrap32_congr (v : Int) : ∃ k : Int, wrap32 v = v + k * 4294967296 := by
  refine ⟨(wrap32 v - v) / 4294967296, ?_⟩
  have h : (4294967296 : Int) ∣ wrap32 v - v := by
    rw [wrap32_eq]
    exact Int.dvd_bmod_sub_self (x := v) (m := 4294967296)
  omega

theorem raw_eq_iff {a b : Word} : raw a = raw b ↔ a = b :=
  ⟨fun h => by rw [← word_raw a, ← word_raw b, h], fun h => by rw [h]⟩

/-- The lanes of a word carry that word (R33). -/
@[simp] theorem lanesWord_wordLanes (w : Word) : lanesWord (wordLanes w) = some w := by
  simp only [wordLanes, lanesWord, Option.some.injEq]
  apply BitVec.eq_of_getLsbD_eq
  intro i hi
  simp only [BitVec.getLsbD_append, BitVec.getLsbD_extractLsb']
  rcases Nat.lt_or_ge i 8 with h | h
  · simp [h]
  · rcases Nat.lt_or_ge i 16 with h' | h'
    · simp [show ¬ i < 8 by omega, show i - 8 < 8 by omega, show 8 + (i - 8) = i by omega]
    · rcases Nat.lt_or_ge i 24 with h'' | h''
      · simp [show ¬ i < 8 by omega, show ¬ i - 8 < 8 by omega, show i - 8 - 8 < 8 by omega,
          show 16 + (i - 8 - 8) = i by omega]
      · simp [show ¬ i < 8 by omega, show ¬ i - 8 < 8 by omega, show ¬ i - 8 - 8 < 8 by omega,
          show i - 8 - 8 - 8 < 8 by omega, show 24 + (i - 8 - 8 - 8) = i by omega]

/-- Register `i` of the map is at `BASE + 4*i` (R30). -/
theorem regIndex_regAddr (s : State) {i : Nat} (h : i < 16) : regIndex s.base (s.regAddr i) = some i := by
  have e : s.regAddr i = s.base + 4 * i := rfl
  rw [e, regIndex, if_pos (by simp only [Config.nregs]; omega)]
  congr 1
  omega

/-- `RegWrite(i, v)` on the bus is that transaction (R35). -/
@[simp] theorem classify_regWriteAccess (s : State) {i : Nat} (h : i < 16) (v : Word) :
    classify s.base (s.regWriteAccess i v) = some (.regWrite i v) := by
  simp [classify, State.regWriteAccess, regIndex_regAddr s h]

/-- `RegRead(i)` on the bus is that transaction (R34). -/
@[simp] theorem classify_regReadAccess (s : State) {i : Nat} (h : i < 16) :
    classify s.base (s.regReadAccess i) = some (.regRead i) := by
  simp [classify, State.regReadAccess, regIndex_regAddr s h]

/-- An `A` command always completes, and writes `RES` only (R11, R48). -/
theorem commandA_eq (f : Settings → Int → Int) (s : State) :
    commandA f s = .next (s.writeRes (f s.active (raw s.opa))) := rfl

/-- An `AB` command always completes, and writes `RES` only (R11, R48). -/
theorem commandAB_eq (f : Settings → Int → Int → Int) (s : State) :
    commandAB f s = .next (s.writeRes (f s.active (raw s.opa) (raw s.opb))) := rfl

/-- `onNext` gives a next state only from one. -/
theorem onNext_eq_next {f : State → State} {o : Host.Outcome State Fault Refusal} {t : State} :
    onNext f o = .next t ↔ ∃ s, o = .next s ∧ f s = t := by
  cases o <;> simp [onNext]

/-- The bit-by-bit root keeps `r*r ≤ n < (r + 2^k)^2`, so it ends at the integer square root. -/
theorem isqrtBits_spec (k n r : Nat) (h1 : r * r ≤ n) (h2 : n < (r + 2 ^ k) * (r + 2 ^ k)) :
    isqrtBits k n r * isqrtBits k n r ≤ n ∧ n < (isqrtBits k n r + 1) * (isqrtBits k n r + 1) := by
  induction k generalizing r with
  | zero => simpa [isqrtBits] using ⟨h1, h2⟩
  | succ k ih =>
    simp only [isqrtBits]
    have e : r + 2 ^ (k + 1) = r + 2 ^ k + 2 ^ k := by rw [pow_succ]; omega
    rw [e] at h2
    split
    · exact ih _ ‹_› h2
    · exact ih _ h1 (by omega)

/-- `isqrt` is the largest `r` with `r*r ≤ n`, on a 48-bit radicand (R90, `00_scope.md` section 7). -/
theorem isqrt_spec {n : Nat} (h : n < 2 ^ 48) : isqrt n * isqrt n ≤ n ∧ n < (isqrt n + 1) * (isqrt n + 1) :=
  isqrtBits_spec 24 n 0 (by omega) (by norm_num at h ⊢; exact h)

/-- What the magnitude of DIV is: the quotient or one more, as `RND` and the remainder say (R75). -/
theorem divMagnitude_bounds (st : Settings) (a b : Int) :
    a.natAbs * 65536 / b.natAbs ≤ divMagnitude st a b ∧ divMagnitude st a b ≤ a.natAbs * 65536 / b.natAbs + 1 := by
  simp only [divMagnitude]
  split <;> omega

/-- DIV of a positive by a positive with a magnitude that fits is that magnitude (R75). -/
theorem fxDiv_pos (st : Settings) {a b : Int} (ha : 0 < a) (hb : 0 < b) (h : divMagnitude st a b < 2147483648) :
    fxDiv st a b = (divMagnitude st a b : Int) := by
  simp [fxDiv, divFinish, divNeg, hb.ne', not_lt.mpr ha.le, not_lt.mpr hb.le, not_le.mpr h]

end Sys2Proof.Machine
end

