-- ==== Sys2Proof/Laws/Loops.lean ====
section
/-! SUPPORT. The fuel of every `while` loop is enough: each loop ends because its own test fails (R93, R94, R103, R120, R177; log 11). -/

namespace Sys2Proof.Machine

/-- Halving takes `v ≤ 2^(16+k)` below `TWO` within `k` passes. -/
theorem log2Halve_exits (st : Settings) (k : Nat) (v : Int) (n : Nat) (h : v ≤ 65536 * 2 ^ k) :
    (log2Halve st k v n).1 < two := by
  induction k generalizing v n with
  | zero =>
    simp only [log2Halve, two]
    norm_num at h
    omega
  | succ k ih =>
    simp only [log2Halve]
    split
    · apply ih
      rw [pow_succ] at h
      simp only [log2Rs]
      split <;> omega
    · simpa using ‹¬ two ≤ v›

/-- The halving loop of LOG2 ends below `TWO` for every operand of `log2core` (R93: at most 15 halvings). -/
theorem log2Halve_fuel (st : Settings) (v : Int) (h : v ≤ 2147483647) : (log2Halve st 15 v 0).1 < two :=
  log2Halve_exits st 15 v 0 (by norm_num; omega)

/-- One division by `E4` of a value above zero. -/
theorem fxDiv_constE4 (st : Settings) {x : Int} (h0 : 0 < x) (h1 : x ≤ 2147483647) :
    x * 65536 / 3578144 ≤ fxDiv st x constE4 ∧ fxDiv st x constE4 ≤ x * 65536 / 3578144 + 1 := by
  have hb := divMagnitude_bounds st x constE4
  simp only [show constE4.natAbs = 3578144 from rfl] at hb
  have hx : (x.natAbs : Int) = x := Int.natAbs_of_nonneg h0.le
  rw [fxDiv_pos st h0 (by decide) (by omega)]
  omega

/-- The dividing loop of LN ends at or below 100.0 (R103: at most 2 passes). -/
theorem lnScaleDown_fuel (st : Settings) {x : Int} (h0 : 0 < x) (h1 : x ≤ 2147483647) (k : Int) :
    (lnScaleDown st 2 x k).1 ≤ hundred := by
  have e1 := fxDiv_constE4 st h0 h1
  simp only [lnScaleDown]
  split
  · rename_i hx
    simp only [hundred] at hx
    have e2 := fxDiv_constE4 st (x := fxDiv st x constE4) (by omega) (by omega)
    split
    · simp only [hundred] at *
      omega
    · omega
  · omega

/-- One multiplication by `E4` of a value above zero and below 1.0. -/
theorem fxMul_constE4 (st : Settings) {x : Int} (h0 : 0 < x) (h1 : x < one) :
    x * 3578144 / 65536 ≤ fxMul st x constE4 ∧ fxMul st x constE4 ≤ x * 3578144 / 65536 + 1 := by
  simp only [one] at h1
  have hp : x * constE4 / 140737488355328 = 0 := by simp only [constE4]; omega
  have hr : x * 3578144 / 65536 ≤ mulRound st (x * constE4) ∧
      mulRound st (x * constE4) ≤ x * 3578144 / 65536 + 1 := by
    unfold mulRound
    split
    · rw [if_pos (by simp only [constE4]; omega)]
      simp only [constE4]
      omega
    · simp only [constE4]
      omega
  simp only [fxMul, hp, true_or, if_true]
  rw [if_neg (by omega)]
  exact hr

/-- The multiplying loop of LN ends at or above 1.0 (R103: at most 3 passes). -/
theorem lnScaleUp_fuel (st : Settings) {x : Int} (h0 : 0 < x) (k : Int) : one ≤ (lnScaleUp st 3 x k).1 := by
  simp only [lnScaleUp]
  split
  · rename_i hx
    have e1 := fxMul_constE4 st h0 hx
    split
    · rename_i hy
      have e2 := fxMul_constE4 st (x := fxMul st x constE4) (by omega) hy
      split
      · rename_i hz
        have e3 := fxMul_constE4 st (x := fxMul st (fxMul st x constE4) constE4) (by omega) hz
        simp only [one] at *
        omega
      · omega
    · omega
  · omega

/-- Aligning the divisor ends with it at or above the dividend within `k` doublings. -/
theorem divAlign_exits (k rem dv mark : Nat) (h : rem ≤ 2 ^ k * dv) : rem ≤ (divAlign k rem dv mark).1 := by
  induction k generalizing dv mark with
  | zero => simpa [divAlign] using h
  | succ k ih =>
    simp only [divAlign]
    split
    · apply ih
      rw [pow_succ] at h
      calc rem ≤ 2 ^ k * 2 * dv := h
        _ = 2 ^ k * (2 * dv) := by ring
    · simpa using ‹¬ dv < rem›

/-- A pass of the quotient loop beyond the marker's width changes nothing (R76: at most 32 iterations). -/
theorem divBits_fuel (k rem dv mark quo : Nat) (h : mark < 2 ^ k) :
    divBits (k + 1) rem dv mark quo = divBits k rem dv mark quo := by
  induction k generalizing rem mark quo with
  | zero =>
    have : mark = 0 := by omega
    simp [divBits, this]
  | succ k ih =>
    have h2 : mark / 2 < 2 ^ k := by rw [pow_succ] at h; omega
    rw [divBits]
    conv_rhs => rw [divBits]
    simp only [ih _ _ _ h2]

/-- The wrap loop's first half ends at or below `half` within `k` passes. -/
theorem wrapDown_exits (h full : Int) (k : Nat) (x : Int) (hx : x ≤ h + k * full) : wrapDown h full k x ≤ h := by
  induction k generalizing x with
  | zero => simpa [wrapDown] using hx
  | succ k ih =>
    simp only [wrapDown]
    split
    · apply ih
      push_cast at hx
      linarith
    · omega

/-- The wrap loop's second half ends above `-half` within `k` passes. -/
theorem wrapUp_exits (h full : Int) (k : Nat) (x : Int) (hx : -h < x + k * full) : -h < wrapUp h full k x := by
  induction k generalizing x with
  | zero => simpa [wrapUp] using hx
  | succ k ih =>
    simp only [wrapUp]
    split
    · apply ih
      push_cast at hx
      linarith
    · omega

end Sys2Proof.Machine
end

