-- ==== Sys2Proof/Laws/PerInstr.lean ====
section
/-! SUPPORT. The per-instruction family: the low byte of a well-formed command's word is its `OPCODE`, and the opcode is one byte (R46, R47). -/

namespace Sys2Proof.Laws.OpcodeByte

/-- Bits [7:0] of the word of `i` are its row's `OPCODE`. -/
def Statement (i : Instr) : Prop := i.wellFormed = true → fieldOpcode (encode i) = opcode i ∧ opcode i < 256

/-- The low byte of a word built as in R52 is the opcode, whatever the fields. -/
theorem low_byte (op k r s : Nat) (h : op < 256) :
    fieldOpcode (BitVec.ofNat 32 (op + k * 2 ^ 8 + r * 2 ^ 16 + s * 2 ^ 24)) = op := by
  have e : op + k * 2 ^ 8 + r * 2 ^ 16 + s * 2 ^ 24 = op + 2 ^ 8 * (k + r * 256 + s * 65536) := by ring
  rw [fieldOpcode, BitVec.extractLsb'_toNat, BitVec.toNat_ofNat, Nat.shiftRight_zero, e,
    Nat.mod_mod_of_dvd _ (by norm_num : 2 ^ 8 ∣ 2 ^ 32), Nat.add_mul_mod_self_left]
  exact Nat.mod_eq_of_lt (by norm_num; exact h)

theorem of_opcode (i : Instr) (h : opcode i < 256) : Statement i :=
  fun _ => ⟨low_byte _ _ _ _ h, h⟩

theorem nop : Statement (.nop) := of_opcode _ (by decide)
theorem cfgset (k r s : Nat) : Statement (.cfgset k r s) := of_opcode _ (show 1 < 256 by decide)
theorem cfgsel (k : Nat) : Statement (.cfgsel k) := of_opcode _ (show 2 < 256 by decide)
theorem int2fix : Statement (.int2fix) := of_opcode _ (by decide)
theorem fix2int : Statement (.fix2int) := of_opcode _ (by decide)
theorem add : Statement (.add) := of_opcode _ (by decide)
theorem sub : Statement (.sub) := of_opcode _ (by decide)
theorem mul : Statement (.mul) := of_opcode _ (by decide)
theorem div : Statement (.div) := of_opcode _ (by decide)
theorem mod : Statement (.mod) := of_opcode _ (by decide)
theorem abs : Statement (.abs) := of_opcode _ (by decide)
theorem floor : Statement (.floor) := of_opcode _ (by decide)
theorem ceil : Statement (.ceil) := of_opcode _ (by decide)
theorem round : Statement (.round) := of_opcode _ (by decide)
theorem sqrt : Statement (.sqrt) := of_opcode _ (by decide)
theorem log2 : Statement (.log2) := of_opcode _ (by decide)
theorem ln : Statement (.ln) := of_opcode _ (by decide)
theorem exp : Statement (.exp) := of_opcode _ (by decide)
theorem pow : Statement (.pow) := of_opcode _ (by decide)
theorem pinit : Statement (.pinit) := of_opcode _ (by decide)
theorem pstep : Statement (.pstep) := of_opcode _ (by decide)
theorem wrappi : Statement (.wrappi) := of_opcode _ (by decide)
theorem wrap180 : Statement (.wrap180) := of_opcode _ (by decide)
theorem sin : Statement (.sin) := of_opcode _ (by decide)
theorem cos : Statement (.cos) := of_opcode _ (by decide)
theorem tan : Statement (.tan) := of_opcode _ (by decide)
theorem atan2 : Statement (.atan2) := of_opcode _ (by decide)
theorem atan : Statement (.atan) := of_opcode _ (by decide)
theorem asin : Statement (.asin) := of_opcode _ (by decide)
theorem acos : Statement (.acos) := of_opcode _ (by decide)
theorem cosh : Statement (.cosh) := of_opcode _ (by decide)
theorem sinh : Statement (.sinh) := of_opcode _ (by decide)
theorem tanh : Statement (.tanh) := of_opcode _ (by decide)

end Sys2Proof.Laws.OpcodeByte
end

