-- ==== Sys2Proof/Laws/State.lean ====
section
/-! SUPPORT. The field lemmas of `State`: for every named update, what each field is after it. No proof needs to unfold a record update. -/

namespace Sys2Proof.Machine

section writeRes
variable (s : State) (v : Int)
@[simp] theorem State.writeRes_opa : (s.writeRes v).opa = s.opa := rfl
@[simp] theorem State.writeRes_opb : (s.writeRes v).opb = s.opb := rfl
@[simp] theorem State.writeRes_res : (s.writeRes v).res = word v := rfl
@[simp] theorem State.writeRes_acc : (s.writeRes v).acc = s.acc := rfl
@[simp] theorem State.writeRes_banks : (s.writeRes v).banks = s.banks := rfl
@[simp] theorem State.writeRes_sel : (s.writeRes v).sel = s.sel := rfl
@[simp] theorem State.writeRes_ill : (s.writeRes v).ill = s.ill := rfl
@[simp] theorem State.writeRes_cfgerr : (s.writeRes v).cfgerr = s.cfgerr := rfl
@[simp] theorem State.writeRes_pstk : (s.writeRes v).pstk = s.pstk := rfl
@[simp] theorem State.writeRes_base : (s.writeRes v).base = s.base := rfl
@[simp] theorem State.writeRes_bus : (s.writeRes v).bus = s.bus := rfl
@[simp] theorem State.writeRes_reply : (s.writeRes v).reply = s.reply := rfl
@[simp] theorem State.writeRes_nbanks : (s.writeRes v).nbanks = s.nbanks := rfl
@[simp] theorem State.writeRes_active : (s.writeRes v).active = s.active := rfl
end writeRes

section writeAcc
variable (s : State) (v : Int)
@[simp] theorem State.writeAcc_opa : (s.writeAcc v).opa = s.opa := rfl
@[simp] theorem State.writeAcc_opb : (s.writeAcc v).opb = s.opb := rfl
@[simp] theorem State.writeAcc_res : (s.writeAcc v).res = s.res := rfl
@[simp] theorem State.writeAcc_acc : (s.writeAcc v).acc = word v := rfl
@[simp] theorem State.writeAcc_banks : (s.writeAcc v).banks = s.banks := rfl
@[simp] theorem State.writeAcc_sel : (s.writeAcc v).sel = s.sel := rfl
@[simp] theorem State.writeAcc_ill : (s.writeAcc v).ill = s.ill := rfl
@[simp] theorem State.writeAcc_cfgerr : (s.writeAcc v).cfgerr = s.cfgerr := rfl
@[simp] theorem State.writeAcc_pstk : (s.writeAcc v).pstk = s.pstk := rfl
@[simp] theorem State.writeAcc_base : (s.writeAcc v).base = s.base := rfl
@[simp] theorem State.writeAcc_bus : (s.writeAcc v).bus = s.bus := rfl
@[simp] theorem State.writeAcc_reply : (s.writeAcc v).reply = s.reply := rfl
@[simp] theorem State.writeAcc_nbanks : (s.writeAcc v).nbanks = s.nbanks := rfl
@[simp] theorem State.writeAcc_active : (s.writeAcc v).active = s.active := rfl
end writeAcc

section writeBank
variable (s : State) (k : Nat) (b : Settings)
@[simp] theorem State.writeBank_opa : (s.writeBank k b).opa = s.opa := rfl
@[simp] theorem State.writeBank_opb : (s.writeBank k b).opb = s.opb := rfl
@[simp] theorem State.writeBank_res : (s.writeBank k b).res = s.res := rfl
@[simp] theorem State.writeBank_acc : (s.writeBank k b).acc = s.acc := rfl
@[simp] theorem State.writeBank_banks : (s.writeBank k b).banks = s.banks.set k b := rfl
@[simp] theorem State.writeBank_sel : (s.writeBank k b).sel = s.sel := rfl
@[simp] theorem State.writeBank_ill : (s.writeBank k b).ill = s.ill := rfl
@[simp] theorem State.writeBank_cfgerr : (s.writeBank k b).cfgerr = s.cfgerr := rfl
@[simp] theorem State.writeBank_pstk : (s.writeBank k b).pstk = s.pstk := rfl
@[simp] theorem State.writeBank_base : (s.writeBank k b).base = s.base := rfl
@[simp] theorem State.writeBank_bus : (s.writeBank k b).bus = s.bus := rfl
@[simp] theorem State.writeBank_reply : (s.writeBank k b).reply = s.reply := rfl
@[simp] theorem State.writeBank_nbanks : (s.writeBank k b).nbanks = s.nbanks := by simp [State.nbanks]
end writeBank

section writeSel
variable (s : State) (k : BitVec 8)
@[simp] theorem State.writeSel_opa : (s.writeSel k).opa = s.opa := rfl
@[simp] theorem State.writeSel_opb : (s.writeSel k).opb = s.opb := rfl
@[simp] theorem State.writeSel_res : (s.writeSel k).res = s.res := rfl
@[simp] theorem State.writeSel_acc : (s.writeSel k).acc = s.acc := rfl
@[simp] theorem State.writeSel_banks : (s.writeSel k).banks = s.banks := rfl
@[simp] theorem State.writeSel_sel : (s.writeSel k).sel = k := rfl
@[simp] theorem State.writeSel_ill : (s.writeSel k).ill = s.ill := rfl
@[simp] theorem State.writeSel_cfgerr : (s.writeSel k).cfgerr = s.cfgerr := rfl
@[simp] theorem State.writeSel_pstk : (s.writeSel k).pstk = s.pstk := rfl
@[simp] theorem State.writeSel_base : (s.writeSel k).base = s.base := rfl
@[simp] theorem State.writeSel_bus : (s.writeSel k).bus = s.bus := rfl
@[simp] theorem State.writeSel_reply : (s.writeSel k).reply = s.reply := rfl
@[simp] theorem State.writeSel_nbanks : (s.writeSel k).nbanks = s.nbanks := rfl
end writeSel

section retire
variable (s : State) (r : Reply)
@[simp] theorem State.retire_opa : (s.retire r).opa = s.opa := rfl
@[simp] theorem State.retire_opb : (s.retire r).opb = s.opb := rfl
@[simp] theorem State.retire_res : (s.retire r).res = s.res := rfl
@[simp] theorem State.retire_acc : (s.retire r).acc = s.acc := rfl
@[simp] theorem State.retire_banks : (s.retire r).banks = s.banks := rfl
@[simp] theorem State.retire_sel : (s.retire r).sel = s.sel := rfl
@[simp] theorem State.retire_ill : (s.retire r).ill = s.ill := rfl
@[simp] theorem State.retire_cfgerr : (s.retire r).cfgerr = s.cfgerr := rfl
@[simp] theorem State.retire_pstk : (s.retire r).pstk = s.pstk := rfl
@[simp] theorem State.retire_base : (s.retire r).base = s.base := rfl
@[simp] theorem State.retire_bus : (s.retire r).bus = s.bus.tail := rfl
@[simp] theorem State.retire_reply : (s.retire r).reply = r := rfl
@[simp] theorem State.retire_nbanks : (s.retire r).nbanks = s.nbanks := rfl
@[simp] theorem State.retire_active : (s.retire r).active = s.active := rfl
end retire

section reportIllegal
variable (s : State)
@[simp] theorem State.reportIllegal_opa : (s.reportIllegal).opa = s.opa := rfl
@[simp] theorem State.reportIllegal_opb : (s.reportIllegal).opb = s.opb := rfl
@[simp] theorem State.reportIllegal_res : (s.reportIllegal).res = s.res := rfl
@[simp] theorem State.reportIllegal_acc : (s.reportIllegal).acc = s.acc := rfl
@[simp] theorem State.reportIllegal_banks : (s.reportIllegal).banks = s.banks := rfl
@[simp] theorem State.reportIllegal_sel : (s.reportIllegal).sel = s.sel := rfl
@[simp] theorem State.reportIllegal_ill : (s.reportIllegal).ill = true := rfl
@[simp] theorem State.reportIllegal_cfgerr : (s.reportIllegal).cfgerr = s.cfgerr := rfl
@[simp] theorem State.reportIllegal_pstk : (s.reportIllegal).pstk = s.pstk := rfl
@[simp] theorem State.reportIllegal_base : (s.reportIllegal).base = s.base := rfl
@[simp] theorem State.reportIllegal_bus : (s.reportIllegal).bus = s.bus := rfl
@[simp] theorem State.reportIllegal_reply : (s.reportIllegal).reply = s.reply := rfl
@[simp] theorem State.reportIllegal_nbanks : (s.reportIllegal).nbanks = s.nbanks := rfl
@[simp] theorem State.reportIllegal_active : (s.reportIllegal).active = s.active := rfl
end reportIllegal

section setCfgerr
variable (s : State) (b : Bool)
@[simp] theorem State.setCfgerr_opa : (s.setCfgerr b).opa = s.opa := rfl
@[simp] theorem State.setCfgerr_opb : (s.setCfgerr b).opb = s.opb := rfl
@[simp] theorem State.setCfgerr_res : (s.setCfgerr b).res = s.res := rfl
@[simp] theorem State.setCfgerr_acc : (s.setCfgerr b).acc = s.acc := rfl
@[simp] theorem State.setCfgerr_banks : (s.setCfgerr b).banks = s.banks := rfl
@[simp] theorem State.setCfgerr_sel : (s.setCfgerr b).sel = s.sel := rfl
@[simp] theorem State.setCfgerr_ill : (s.setCfgerr b).ill = s.ill := rfl
@[simp] theorem State.setCfgerr_cfgerr : (s.setCfgerr b).cfgerr = b := rfl
@[simp] theorem State.setCfgerr_pstk : (s.setCfgerr b).pstk = s.pstk := rfl
@[simp] theorem State.setCfgerr_base : (s.setCfgerr b).base = s.base := rfl
@[simp] theorem State.setCfgerr_bus : (s.setCfgerr b).bus = s.bus := rfl
@[simp] theorem State.setCfgerr_reply : (s.setCfgerr b).reply = s.reply := rfl
@[simp] theorem State.setCfgerr_nbanks : (s.setCfgerr b).nbanks = s.nbanks := rfl
@[simp] theorem State.setCfgerr_active : (s.setCfgerr b).active = s.active := rfl
end setCfgerr

section setPstk
variable (s : State) (b : Bool)
@[simp] theorem State.setPstk_opa : (s.setPstk b).opa = s.opa := rfl
@[simp] theorem State.setPstk_opb : (s.setPstk b).opb = s.opb := rfl
@[simp] theorem State.setPstk_res : (s.setPstk b).res = s.res := rfl
@[simp] theorem State.setPstk_acc : (s.setPstk b).acc = s.acc := rfl
@[simp] theorem State.setPstk_banks : (s.setPstk b).banks = s.banks := rfl
@[simp] theorem State.setPstk_sel : (s.setPstk b).sel = s.sel := rfl
@[simp] theorem State.setPstk_ill : (s.setPstk b).ill = s.ill := rfl
@[simp] theorem State.setPstk_cfgerr : (s.setPstk b).cfgerr = s.cfgerr := rfl
@[simp] theorem State.setPstk_pstk : (s.setPstk b).pstk = b := rfl
@[simp] theorem State.setPstk_base : (s.setPstk b).base = s.base := rfl
@[simp] theorem State.setPstk_bus : (s.setPstk b).bus = s.bus := rfl
@[simp] theorem State.setPstk_reply : (s.setPstk b).reply = s.reply := rfl
@[simp] theorem State.setPstk_nbanks : (s.setPstk b).nbanks = s.nbanks := rfl
@[simp] theorem State.setPstk_active : (s.setPstk b).active = s.active := rfl
end setPstk

section resetUnit
variable (s : State)
@[simp] theorem State.resetUnit_opa : (s.resetUnit).opa = 0 := rfl
@[simp] theorem State.resetUnit_opb : (s.resetUnit).opb = 0 := rfl
@[simp] theorem State.resetUnit_res : (s.resetUnit).res = 0 := rfl
@[simp] theorem State.resetUnit_acc : (s.resetUnit).acc = 0 := rfl
@[simp] theorem State.resetUnit_banks : (s.resetUnit).banks = List.replicate s.nbanks defaultSettings := rfl
@[simp] theorem State.resetUnit_sel : (s.resetUnit).sel = 0xFF#8 := rfl
@[simp] theorem State.resetUnit_ill : (s.resetUnit).ill = false := rfl
@[simp] theorem State.resetUnit_cfgerr : (s.resetUnit).cfgerr = false := rfl
@[simp] theorem State.resetUnit_pstk : (s.resetUnit).pstk = false := rfl
@[simp] theorem State.resetUnit_base : (s.resetUnit).base = s.base := rfl
@[simp] theorem State.resetUnit_bus : (s.resetUnit).bus = s.bus := rfl
@[simp] theorem State.resetUnit_reply : (s.resetUnit).reply = s.reply := rfl
@[simp] theorem State.resetUnit_nbanks : (s.resetUnit).nbanks = s.nbanks := by simp [State.nbanks]
end resetUnit

section withFetchWord
variable (s : State) (n w : Nat)
@[simp] theorem State.withFetchWord_opa : (s.withFetchWord n w).opa = s.opa := rfl
@[simp] theorem State.withFetchWord_opb : (s.withFetchWord n w).opb = s.opb := rfl
@[simp] theorem State.withFetchWord_res : (s.withFetchWord n w).res = s.res := rfl
@[simp] theorem State.withFetchWord_acc : (s.withFetchWord n w).acc = s.acc := rfl
@[simp] theorem State.withFetchWord_banks : (s.withFetchWord n w).banks = s.banks := rfl
@[simp] theorem State.withFetchWord_sel : (s.withFetchWord n w).sel = s.sel := rfl
@[simp] theorem State.withFetchWord_ill : (s.withFetchWord n w).ill = s.ill := rfl
@[simp] theorem State.withFetchWord_cfgerr : (s.withFetchWord n w).cfgerr = s.cfgerr := rfl
@[simp] theorem State.withFetchWord_pstk : (s.withFetchWord n w).pstk = s.pstk := rfl
@[simp] theorem State.withFetchWord_base : (s.withFetchWord n w).base = s.base := rfl
@[simp] theorem State.withFetchWord_bus : (s.withFetchWord n w).bus = s.regWriteAccess cmdIndex (BitVec.ofNat 32 (w % 2 ^ n)) :: s.bus := rfl
@[simp] theorem State.withFetchWord_reply : (s.withFetchWord n w).reply = s.reply := rfl
@[simp] theorem State.withFetchWord_nbanks : (s.withFetchWord n w).nbanks = s.nbanks := rfl
@[simp] theorem State.withFetchWord_active : (s.withFetchWord n w).active = s.active := rfl
end withFetchWord

section writeStatus
variable (s : State) (v : Word)
@[simp] theorem State.writeStatus_opa : (s.writeStatus v).opa = s.opa := by unfold State.writeStatus; split <;> rfl
@[simp] theorem State.writeStatus_opb : (s.writeStatus v).opb = s.opb := by unfold State.writeStatus; split <;> rfl
@[simp] theorem State.writeStatus_res : (s.writeStatus v).res = s.res := by unfold State.writeStatus; split <;> rfl
@[simp] theorem State.writeStatus_acc : (s.writeStatus v).acc = s.acc := by unfold State.writeStatus; split <;> rfl
@[simp] theorem State.writeStatus_banks : (s.writeStatus v).banks = s.banks := by unfold State.writeStatus; split <;> rfl
@[simp] theorem State.writeStatus_sel : (s.writeStatus v).sel = s.sel := by unfold State.writeStatus; split <;> rfl
@[simp] theorem State.writeStatus_ill : (s.writeStatus v).ill = (s.ill && !v.getLsbD 0) := by
  unfold State.writeStatus; split <;> simp_all
@[simp] theorem State.writeStatus_cfgerr : (s.writeStatus v).cfgerr = s.cfgerr := by unfold State.writeStatus; split <;> rfl
@[simp] theorem State.writeStatus_pstk : (s.writeStatus v).pstk = s.pstk := by unfold State.writeStatus; split <;> rfl
@[simp] theorem State.writeStatus_base : (s.writeStatus v).base = s.base := by unfold State.writeStatus; split <;> rfl
@[simp] theorem State.writeStatus_bus : (s.writeStatus v).bus = s.bus := by unfold State.writeStatus; split <;> rfl
@[simp] theorem State.writeStatus_reply : (s.writeStatus v).reply = s.reply := by unfold State.writeStatus; split <;> rfl
end writeStatus

/-- Default settings are active after reset (R15, R19), on a unit with at most 255 banks. -/
theorem State.resetUnit_active (s : State) (h : s.nbanks ≤ 255) : s.resetUnit.active = defaultSettings := by
  simp only [State.active, State.resetUnit_banks, State.resetUnit_sel]
  rw [List.getD_eq_default]
  simpa using h

/-- A selector that names bank `k` makes it active (R15). -/
theorem State.active_of_bank (s : State) (h : s.sel.toNat < s.nbanks) : s.active = s.banks[s.sel.toNat]'h := by
  simp only [State.nbanks] at h
  simp [State.active, List.getD, h]

/-- A selector that names no bank makes the default settings active (R15, log 8). -/
theorem State.active_of_none (s : State) (h : s.nbanks ≤ s.sel.toNat) : s.active = defaultSettings := by
  simp only [State.nbanks] at h
  simp [State.active, List.getD, h]

end Sys2Proof.Machine
end

