-- ==== Sys2Proof/Laws/Step.lean ====
section
/-! SUPPORT. What one step can do, said once: idle, or one admitted transaction performed and answered. -/

namespace Sys2Proof.Machine

/-- All a step that answers a next state can do (R6, R36, R38, R164). -/
theorem step_next_cases {s t : State} (h : step s = .next t) :
    (s.bus = [] ∧ t = s) ∨
    ∃ a rest tr u, s.bus = a :: rest ∧ classify s.base a = some tr ∧ perform s tr = .next u ∧
      t = u.retire (replyTo s tr) := by
  unfold step at h
  split at h
  · rename_i hb
    exact .inl ⟨hb, by cases h; rfl⟩
  · rename_i a rest hb
    split at h
    · cases h
    · rename_i tr hc
      obtain ⟨u, hu, ht⟩ := onNext_eq_next.mp h
      exact .inr ⟨a, rest, tr, u, hb, hc, hu, ht.symm⟩

/-- All a transaction that answers a next state can do (R34, R35, R50, R165). -/
theorem perform_next_cases {s u : State} {tr : Transaction} (h : perform s tr = .next u) :
    (∃ i, tr = .regRead i ∧ u = s) ∨
    (∃ v i, tr = .regWrite cmdIndex v ∧ decodeWord v = .ok i ∧ exec i s = .next u) ∨
    (∃ v e, tr = .regWrite cmdIndex v ∧ decodeWord v = .error e ∧ u = s.reportIllegal) ∨
    (∃ i v, tr = .regWrite i v ∧ i ≠ cmdIndex ∧ u = s.writeReg i v) ∨
    (tr = .reset ∧ u = s.resetUnit) := by
  cases tr with
  | regRead i => exact .inl ⟨i, rfl, by cases h; rfl⟩
  | reset => exact .inr (.inr (.inr (.inr ⟨rfl, by cases h; rfl⟩)))
  | regWrite i v =>
    by_cases hi : i = cmdIndex
    · subst hi
      simp only [perform, if_true, runCommand] at h
      split at h
      · rename_i j hj
        exact .inr (.inl ⟨v, j, rfl, hj, h⟩)
      · rename_i e he
        exact .inr (.inr (.inl ⟨v, e, rfl, he, by cases h; rfl⟩))
    · simp only [perform, hi, if_false] at h
      exact .inr (.inr (.inr (.inl ⟨i, v, rfl, hi, by cases h; rfl⟩)))

/-- A step that performs an admitted transaction with a next state answers that state, retired. -/
theorem step_of_perform {s u : State} {a : Access} {rest : List Access} {tr : Transaction}
    (hb : s.bus = a :: rest) (hc : classify s.base a = some tr) (hp : perform s tr = .next u) :
    step s = .next (u.retire (replyTo s tr)) := by
  simp [step, hb, hc, hp, onNext]

/-- A write to a register other than `CMD` changes only an operand register or `ILL` (R35, R37). -/
theorem State.writeReg_cases (s : State) (i : Nat) (v : Word) :
    s.writeReg i v = { s with opa := v } ∨ s.writeReg i v = { s with opb := v } ∨
      s.writeReg i v = s.writeStatus v ∨ s.writeReg i v = s := by
  unfold State.writeReg
  split <;> simp

end Sys2Proof.Machine
end

