-- ==== Sys2Proof/Tests/Slice0.lean ====
section
/-! SUPPORT. The model's own tests: well-formedness, decoding of words written out from R46 and R47, one step of each command against
`95_test_vectors.md` (section of the command, the column the record names), and a witness for the hypotheses of each statement. -/

namespace Sys2Proof.Tests
-- One test after another: many tests elaborated at once start more threads than the memory limit allows.
set_option Elab.async false
open Sys2Proof.Machine

/-- The four settings records of `95_test_vectors.md`. -/
def defRecord : Settings := ⟨0x80000001#32, 0x7FFFFFFF#32, true, false⟩
def trnRecord : Settings := ⟨0x80000001#32, 0x7FFFFFFF#32, false, false⟩
def satRecord : Settings := ⟨0xFF9C0000#32, 0x00640000#32, true, true⟩
def narRecord : Settings := ⟨0xFF9C0000#32, 0x00640000#32, true, false⟩

/-- A unit after reset but for `OPA`, `OPB` and bank 0, which is active. -/
def unit (st : Settings) (a b : Word) : State :=
  { State.reset with opa := a, opb := b, banks := State.reset.banks.set 0 st, sel := 0 }

/-- `RES` of a next state. -/
def resOf : Host.Outcome State Fault Refusal → Option Word
  | .next t => some t.res
  | .fault _ => none
  | .refused _ => none

/-- Any property of a next state. -/
def nextSatisfies (p : State → Bool) : Host.Outcome State Fault Refusal → Bool
  | .next t => p t
  | .fault _ => false
  | .refused _ => false

/-- A unit with all three flags set and this write to `STATUS` pending. -/
def pending' (v : Word) : State :=
  { State.reset with ill := true, cfgerr := true, pstk := true, bus := [State.reset.regWriteAccess 4 v] }

/-- A unit after reset with these accesses pending. -/
def pending (bus : List Access) : State := { State.reset with bus := bus }

section WellFormed

theorem test_wf_cfgset_bank : (Instr.cfgset 256 0 0).wellFormed = false := by decide
theorem test_wf_cfgset_rndv : (Instr.cfgset 0 256 0).wellFormed = false := by decide
theorem test_wf_cfgset_satv : (Instr.cfgset 0 0 256).wellFormed = false := by decide
theorem test_wf_cfgsel_bank : (Instr.cfgsel 256).wellFormed = false := by decide
theorem test_wf_largest_fields : (Instr.cfgset 255 255 255).wellFormed = true := by decide

end WellFormed

section Decoding

/-- R46, R47: the words bit by bit, `SATV`, `RNDV`, `BANK`, `OPCODE`. -/
theorem test_decode_settings :
    decodeWord 0b00000000000000000000000000000000#32 = .ok .nop ∧
    decodeWord 0b11111110000000011100100000000001#32 = .ok (.cfgset 200 1 254) ∧
    decodeWord 0b00000000000000000000001100000010#32 = .ok (.cfgsel 3) := by decide +kernel

/-- R46, R47: the words bit by bit, `SATV`, `RNDV`, `BANK`, `OPCODE`. -/
theorem test_decode_conversion :
    decodeWord 0b00000000000000000000000000001000#32 = .ok .int2fix ∧
    decodeWord 0b00000000000000000000000000001001#32 = .ok .fix2int := by decide +kernel

/-- R46, R47: the words bit by bit, `SATV`, `RNDV`, `BANK`, `OPCODE`. -/
theorem test_decode_arithmetic :
    decodeWord 0b00000000000000000000000000010000#32 = .ok .add ∧
    decodeWord 0b00000000000000000000000000010001#32 = .ok .sub ∧
    decodeWord 0b00000000000000000000000000010010#32 = .ok .mul ∧
    decodeWord 0b00000000000000000000000000010011#32 = .ok .div ∧
    decodeWord 0b00000000000000000000000000010100#32 = .ok .mod ∧
    decodeWord 0b00000000000000000000000000010101#32 = .ok .abs ∧
    decodeWord 0b00000000000000000000000000010110#32 = .ok .floor ∧
    decodeWord 0b00000000000000000000000000010111#32 = .ok .ceil ∧
    decodeWord 0b00000000000000000000000000011000#32 = .ok .round := by decide +kernel

/-- R46, R47: the words bit by bit, `SATV`, `RNDV`, `BANK`, `OPCODE`. -/
theorem test_decode_elementary :
    decodeWord 0b00000000000000000000000000100000#32 = .ok .sqrt ∧
    decodeWord 0b00000000000000000000000000100001#32 = .ok .log2 ∧
    decodeWord 0b00000000000000000000000000100010#32 = .ok .ln ∧
    decodeWord 0b00000000000000000000000000100011#32 = .ok .exp ∧
    decodeWord 0b00000000000000000000000000100100#32 = .ok .pow ∧
    decodeWord 0b00000000000000000000000000100101#32 = .ok .pinit ∧
    decodeWord 0b00000000000000000000000000100110#32 = .ok .pstep := by decide +kernel

/-- R46, R47: the words bit by bit, `SATV`, `RNDV`, `BANK`, `OPCODE`. -/
theorem test_decode_trig :
    decodeWord 0b00000000000000000000000000110000#32 = .ok .wrappi ∧
    decodeWord 0b00000000000000000000000000110001#32 = .ok .wrap180 ∧
    decodeWord 0b00000000000000000000000000110010#32 = .ok .sin ∧
    decodeWord 0b00000000000000000000000000110011#32 = .ok .cos ∧
    decodeWord 0b00000000000000000000000000110100#32 = .ok .tan := by decide +kernel

/-- R46, R47: the words bit by bit, `SATV`, `RNDV`, `BANK`, `OPCODE`. -/
theorem test_decode_inverse_trig :
    decodeWord 0b00000000000000000000000000110101#32 = .ok .atan2 ∧
    decodeWord 0b00000000000000000000000000110110#32 = .ok .atan ∧
    decodeWord 0b00000000000000000000000000110111#32 = .ok .asin ∧
    decodeWord 0b00000000000000000000000000111000#32 = .ok .acos := by decide +kernel

/-- R46, R47: the words bit by bit, `SATV`, `RNDV`, `BANK`, `OPCODE`. -/
theorem test_decode_hyperbolic :
    decodeWord 0b00000000000000000000000000111001#32 = .ok .cosh ∧
    decodeWord 0b00000000000000000000000000111010#32 = .ok .sinh ∧
    decodeWord 0b00000000000000000000000000111011#32 = .ok .tanh := by decide +kernel

/-- R50 (a), (b), (c) and a byte count that is no word, each rejected by its name. -/
theorem test_decode_rejects :
    decodeWord 0x00000003#32 = .error (.undefinedOpcode 3) ∧ decodeWord 0x0000003C#32 = .error (.undefinedOpcode 0x3C) ∧
    decodeWord 0x00010002#32 = .error (.unusedFieldNonzero 2) ∧ decodeWord 0x00000110#32 = .error (.unusedFieldNonzero 0x10) ∧
    decodeLanes [0x10#8, 0#8] = .error (.wrongLength 2) := by decide +kernel

/-- R52: the word of `CFGSET bank=2, rnd=0, sat=1` is 0x01000201; on the lanes the low byte comes first (R33). -/
theorem test_encode_cfgset : encode (.cfgset 2 0 1) = 0x01000201#32 ∧
    wordLanes (encode (.cfgset 2 0 1)) = [0x01#8, 0x02#8, 0x00#8, 0x01#8] := by decide +kernel

theorem test_table_word : decodeTableWord 32 0x35 = some .atan2 ∧ decodeTableWord 32 0x3D = none := by decide +kernel

end Decoding

section Commands

theorem test_int2fix_of_minus_one : resOf (exec .int2fix (unit defRecord 0xFFFFFFFF#32 0)) = some 0xFFFF0000#32 := by decide +kernel
theorem test_int2fix_keeps_low_half : resOf (exec .int2fix (unit defRecord 0x00012345#32 0)) = some 0x23450000#32 := by decide +kernel
theorem test_fix2int_rounds : resOf (exec .fix2int (unit defRecord 0xFFFF8001#32 0)) = some 0x00000000#32 := by decide +kernel
theorem test_fix2int_shifts : resOf (exec .fix2int (unit trnRecord 0xFFFF8001#32 0)) = some 0xFFFFFFFF#32 := by decide +kernel
theorem test_add_overflow_ignores_sat : resOf (exec .add (unit satRecord 0x7FFFFFFF#32 0x00010000#32)) = some 0x80000000#32 := by decide +kernel
theorem test_add_exact_least : resOf (exec .add (unit defRecord 0xC0000000#32 0xC0000000#32)) = some 0x80000000#32 := by decide +kernel
theorem test_sub_operand_order : resOf (exec .sub (unit defRecord 0x00030000#32 0x00050000#32)) = some 0xFFFE0000#32 := by decide +kernel
theorem test_sub_overflow : resOf (exec .sub (unit defRecord 0x7FFFFFFF#32 0xFFFFFFFF#32)) = some 0x80000000#32 := by decide +kernel
theorem test_mul_truncates_down : resOf (exec .mul (unit trnRecord 0xFFFFFFFF#32 0x00004000#32)) = some 0xFFFFFFFF#32 := by decide +kernel
theorem test_mul_overflow_ignores_sat : resOf (exec .mul (unit satRecord 0x7FFFFFFF#32 0x00010001#32)) = some 0x80000000#32 := by decide +kernel
theorem test_div_rounds_magnitude : resOf (exec .div (unit defRecord 0xFFFE0000#32 0x00030000#32)) = some 0xFFFF5555#32 := by decide +kernel
theorem test_div_saturates_to_min : resOf (exec .div (unit satRecord 0x80000000#32 0x00010000#32)) = some 0xFF9C0000#32 := by decide +kernel
theorem test_mod_sign_of_dividend : resOf (exec .mod (unit defRecord 0xFFF90000#32 0x00020000#32)) = some 0xFFFF0000#32 := by decide +kernel
theorem test_mod_by_zero : resOf (exec .mod (unit defRecord 0x00070000#32 0x00000000#32)) = some 0x80000000#32 := by decide +kernel
theorem test_abs_negative : resOf (exec .abs (unit defRecord 0xFFFE8000#32 0)) = some 0x00018000#32 := by decide +kernel
theorem test_abs_of_sentinel : resOf (exec .abs (unit defRecord 0x80000000#32 0)) = some 0x80000000#32 := by decide +kernel
theorem test_floor_negative : resOf (exec .floor (unit defRecord 0xFFFE8000#32 0)) = some 0xFFFE0000#32 := by decide +kernel
theorem test_floor_clears_fraction : resOf (exec .floor (unit defRecord 0x0001FFFF#32 0)) = some 0x00010000#32 := by decide +kernel
theorem test_ceil_wraps : resOf (exec .ceil (unit defRecord 0x7FFF0001#32 0)) = some 0x80000000#32 := by decide +kernel
theorem test_ceil_integer : resOf (exec .ceil (unit defRecord 0x00020000#32 0)) = some 0x00020000#32 := by decide +kernel
theorem test_round_tie_up : resOf (exec .round (unit defRecord 0xFFFE8000#32 0)) = some 0xFFFF0000#32 := by decide +kernel
theorem test_round_wraps : resOf (exec .round (unit defRecord 0x7FFF8000#32 0)) = some 0x80000000#32 := by decide +kernel
theorem test_sqrt_rounds : resOf (exec .sqrt (unit defRecord 0x00020000#32 0)) = some 0x00016A0A#32 := by decide +kernel
theorem test_sqrt_of_zero : resOf (exec .sqrt (unit satRecord 0x00000000#32 0)) = some 0x80000000#32 := by decide +kernel
theorem test_log2_reciprocal : resOf (exec .log2 (unit trnRecord 0x00000003#32 0)) = some 0xFFF195C1#32 := by decide +kernel
theorem test_log2_overflow_saturates : resOf (exec .log2 (unit satRecord 0x00000002#32 0)) = some 0xFF9C0000#32 := by decide +kernel
theorem test_exp_series : resOf (exec .exp (unit trnRecord 0x00050000#32 0)) = some 0x00946887#32 := by decide +kernel
theorem test_exp_reciprocal : resOf (exec .exp (unit defRecord 0xFFFE0000#32 0)) = some 0x000022A5#32 := by decide +kernel
theorem test_ln_rescaled_down : resOf (exec .ln (unit defRecord 0x00640001#32 0)) = some 0x00049AED#32 := by decide +kernel
theorem test_ln_rescaled_up : resOf (exec .ln (unit defRecord 0x00000001#32 0)) = some 0xFFF4EAC2#32 := by decide +kernel
theorem test_pow_integer_path : resOf (exec .pow (unit defRecord 0xFFFE0000#32 0x00030000#32)) = some 0xFFF80000#32 := by decide +kernel
theorem test_pow_general_path : resOf (exec .pow (unit trnRecord 0xFFF80000#32 0xFFFF0000#32)) = some 0xFFFFE001#32 := by decide +kernel
theorem test_wrappi_open_end : resOf (exec .wrappi (unit defRecord 0xFFFCDBC1#32 0)) = some 0x0003243F#32 := by decide +kernel
theorem test_wrappi_far : resOf (exec .wrappi (unit defRecord 0x7FFFFFFF#32 0)) = some 0x0001413D#32 := by decide +kernel
theorem test_wrap180_closed_end : resOf (exec .wrap180 (unit defRecord 0x00B40000#32 0)) = some 0x00B40000#32 := by decide +kernel
theorem test_wrap180_far : resOf (exec .wrap180 (unit defRecord 0x80000000#32 0)) = some 0xFFF80000#32 := by decide +kernel
theorem test_sin_sentinel_flows_on : resOf (exec .sin (unit defRecord 0x000292C6#32 0)) = some 0x00008A2E#32 := by decide +kernel
theorem test_sin_wrapped_truncating : resOf (exec .sin (unit trnRecord 0x7FFFFFFF#32 0)) = some 0x0000F355#32 := by decide +kernel
theorem test_cos_truncating : resOf (exec .cos (unit trnRecord 0x00010000#32 0)) = some 0x00008A50#32 := by decide +kernel
theorem test_cos_addition_wraps : resOf (exec .cos (unit defRecord 0x7FFFFFFF#32 0)) = some 0x00004F8A#32 := by decide +kernel
theorem test_tan_zero_cosine_gives_min : resOf (exec .tan (unit satRecord 0xFFFE6DE0#32 0)) = some 0xFF9C0000#32 := by decide +kernel
theorem test_tan_of_one : resOf (exec .tan (unit defRecord 0x00010000#32 0)) = some 0x00018EBC#32 := by decide +kernel
theorem test_atan2_origin_depends_on_min : resOf (exec .atan2 (unit satRecord 0x00000000#32 0x00000000#32)) = some 0xE742F450#32 := by decide +kernel
theorem test_atan2_second_quadrant : resOf (exec .atan2 (unit defRecord 0x00640000#32 0xFFFF0000#32)) = some 0x0001942D#32 := by decide +kernel
theorem test_atan_of_ten : resOf (exec .atan (unit trnRecord 0x000A0000#32 0)) = some 0x00017B29#32 := by decide +kernel
theorem test_atan_sum_wraps : resOf (exec .atan (unit defRecord 0x7FFFFFFF#32 0)) = some 0x00000000#32 := by decide +kernel
theorem test_asin_at_one : resOf (exec .asin (unit defRecord 0x00010000#32 0)) = some 0xFFFFFFFE#32 := by decide +kernel
theorem test_asin_outside : resOf (exec .asin (unit defRecord 0xFFFE0000#32 0)) = some 0x00000000#32 := by decide +kernel
theorem test_acos_negative : resOf (exec .acos (unit defRecord 0xFFFF8000#32 0)) = some 0x000218D1#32 := by decide +kernel
theorem test_acos_outside : resOf (exec .acos (unit defRecord 0x00020000#32 0)) = some 0x00019220#32 := by decide +kernel
theorem test_cosh_truncating : resOf (exec .cosh (unit trnRecord 0x00008000#32 0)) = some 0x000120AA#32 := by decide +kernel
theorem test_cosh_clamped : resOf (exec .cosh (unit satRecord 0x80000000#32 0)) = some 0x00640000#32 := by decide +kernel
theorem test_sinh_rounds_down : resOf (exec .sinh (unit defRecord 0xFFFF0000#32 0)) = some 0xFFFED326#32 := by decide +kernel
theorem test_sinh_clamped_to_min : resOf (exec .sinh (unit satRecord 0xFFF59A51#32 0)) = some 0xFF9C0000#32 := by decide +kernel
theorem test_tanh_at_threshold : resOf (exec .tanh (unit trnRecord 0xFFF98000#32 0)) = some 0xFFFF0001#32 := by decide +kernel
theorem test_tanh_beyond_threshold : resOf (exec .tanh (unit trnRecord 0x00068001#32 0)) = some 0x00010000#32 := by decide +kernel

/-- R60, its example. -/
theorem test_nop : nextSatisfies (fun t => t == State.reset) (exec .nop State.reset) = true := by decide +kernel
/-- R61, its example. -/
theorem test_cfgset_example : nextSatisfies
    (fun t => t.banks[2]? == some ⟨0xFFFF0000#32, 0x00010000#32, false, true⟩ && t.res == 1 && !t.cfgerr && t.sel == 0)
    (exec (.cfgset 2 0 1) (unit defRecord 0xFFFF0000#32 0x00010000#32)) = true := by decide +kernel
/-- R61: `max = min` fails (`95_test_vectors.md` section 10). -/
theorem test_cfgset_equal_bounds : nextSatisfies (fun t => t.banks == State.reset.banks && t.res == 0 && t.cfgerr)
    (exec (.cfgset 1 1 0) (unit defRecord 0x00010000#32 0x00010000#32)) = true := by decide +kernel
/-- R62: bank 7 of 4 is "none" (section 10). -/
theorem test_cfgsel_none : nextSatisfies (fun t => t.readReg 8 == 0x0000FF01#32)
    (exec (.cfgsel 7) (unit trnRecord 0 0)) = true := by decide +kernel
/-- R62: bank 3 of 4 (section 10). -/
theorem test_cfgsel_bank : nextSatisfies (fun t => t.readReg 8 == 0x00000301#32)
    (exec (.cfgsel 3) (unit trnRecord 0 0)) = true := by decide +kernel
/-- R107: `PSTK` is cleared. -/
theorem test_pinit : nextSatisfies (fun t => t.acc == 0x00020000#32 && t.res == 0x00020000#32 && !t.pstk)
    (exec .pinit { unit defRecord 0x00020000#32 0 with pstk := true }) = true := by decide +kernel
/-- R108, the first step of its example. -/
theorem test_pstep_example : nextSatisfies (fun t => t.acc == 0x00060000#32 && t.res == 0x00060000#32 && !t.pstk)
    (exec .pstep { unit defRecord 0x00018000#32 0x00030000#32 with acc := 0x00020000#32 }) = true := by decide +kernel
/-- R108: a product that overflows sticks (section 5, the third polynomial). -/
theorem test_pstep_sticks : nextSatisfies (fun t => t.acc == 0x80000000#32 && t.res == 0x80000000#32 && t.pstk)
    (exec .pstep { unit defRecord 0x00C80000#32 0 with acc := 0x00C80000#32 }) = true := by decide +kernel

end Commands

section Bus

/-- R36: a byte read, a halfword write, misaligned accesses and an access past the 64 bytes are refused (section 10). -/
theorem test_refused_accesses :
    classify 64 (.read 0x4C 1) = none ∧ classify 64 (.write 0x40 [0, 0]) = none ∧ classify 64 (.read 0x42 4) = none ∧
    classify 64 (.read 0x4D 4) = none ∧ classify 64 (.read 0x80 4) = none ∧ classify 64 (.read 0x3C 4) = none ∧
    classify 64 (.read 0x7C 4) = some (.regRead 15) := by decide +kernel

/-- R50: the undefined opcode 3 sets `ILL` and leaves `RES` (section 10). -/
theorem test_illegal_word : nextSatisfies (fun t => t.ill && t.res == 7 && t.readReg 4 == 1)
    (step ({ State.reset with res := 7 }.withFetchWord 32 0x03)) = true := by decide +kernel

/-- R35: a write to `STATUS` with bit 0 clear clears nothing, with bit 0 set it clears `ILL` alone (section 10). -/
theorem test_status_write :
    nextSatisfies (fun t => t.readReg 4 == 7) (step (pending' 6)) = true ∧
    nextSatisfies (fun t => t.readReg 4 == 6) (step (pending' 1)) = true := by decide +kernel

end Bus

section Host

/-- `95_test_vectors.md` section 9: "3.14" and back, under both rounding settings. -/
theorem test_string_round_trip :
    stringToFixed defRecord ['3', '.', '1', '4'] = 0x000323D7#32 ∧ fixedToString defRecord 0x000323D7#32 2 = ['3', '.', '1', '4'] ∧
    fixedToString trnRecord 0x000323D7#32 2 = ['3', '.', '1', '3'] := by decide +kernel

/-- Section 9: six integer digits, and the text of the sentinel. -/
theorem test_string_overflow :
    stringToFixed defRecord ['0', '0', '0', '0', '0', '1'] = 0x80000000#32 ∧
    fixedToString defRecord 0x80000000#32 3 = overflowText := by decide +kernel

end Host

/-! Witnesses: a state and operands that meet all the hypotheses of a statement together; where a statement has several clauses,
one for each, at the ends of its range. -/
section Witnesses

theorem witness_DecodeOfEncodeIsTheCommand : (Instr.cfgset 255 255 0).wellFormed = true ∧ Instr.tanh.wellFormed = true := by decide
theorem witness_EncodeOfDecodeIsTheWord : decodeWord 0xFFFFFF01#32 = .ok (.cfgset 255 255 255) := by decide +kernel
theorem witness_DecoderRejectsExactlyIllegalWords :
    illegalWord 0x00000003#32 ∧ illegalWord 0x00010002#32 ∧ illegalWord 0x00000100#32 ∧ ¬ illegalWord 0xFFFFFF01#32 := by
  refine ⟨?_, ?_, ?_, ?_⟩ <;> decide +kernel
theorem witness_StepRunsTheDecodedCommand :
    (pending [State.reset.regWriteAccess cmdIndex 0x10, .reset]).bus
      = (pending [State.reset.regWriteAccess cmdIndex 0x10, .reset]).regWriteAccess cmdIndex 0x10 :: [.reset] ∧
    decodeWord 0x10 = .ok .add := by decide +kernel
theorem witness_IllegalCommandSetsOnlyIll :
    (pending [State.reset.regWriteAccess cmdIndex 0x110]).bus
      = (pending [State.reset.regWriteAccess cmdIndex 0x110]).regWriteAccess cmdIndex 0x110 :: [] ∧
    illegalWord 0x110 := by decide +kernel
theorem witness_StepStopsExactlyOnRefusedAccess : ¬ Admitted 0 (.read 2 4) ∧ ¬ Admitted 0 (.read 64 4) ∧
    ¬ Admitted 0 (.write 0 [0, 0]) ∧ Admitted 0 (.read 60 4) ∧ Admitted 0 (.write 0 [0, 0, 0, 0]) := by
  refine ⟨?_, ?_, ?_, ⟨rfl, 15, by decide, rfl⟩, ⟨rfl, 0, by decide, rfl⟩⟩
  · rintro ⟨-, i, -, h⟩
    omega
  · rintro ⟨-, i, hi, h⟩
    omega
  · rintro ⟨h, -⟩
    cases h
theorem witness_StepStopsExactlyOnRefusedAccess_run :
    step (pending [.read 2 4]) = .refused (.busError (.read 2 4)) := rfl
theorem witness_RepeatedCommandIsHarmless : Instr.cfgset 0 1 1 ≠ .pstep := by decide
theorem witness_EveryStepKeepsTheStateSound :
    State.sound { pending [State.reset.commandAccess .pinit] with pstk := true, acc := 0x80000000#32 } = true ∧
    nextSatisfies (fun _ => true) (step { pending [State.reset.commandAccess .pinit] with pstk := true, acc := 0x80000000#32 }) = true := by
  decide +kernel
theorem witness_ResetEventGivesTheResetTable :
    (pending [.reset]).bus = .reset :: [] ∧ (pending [.reset]).nbanks ≤ 255 := by decide +kernel
theorem witness_IdleUnitKeepsItsState : State.reset.bus = [] := rfl
theorem witness_RegReadReturnsTheContentAndChangesNothing : 15 < 16 ∧
    (pending [.read 0 4]).bus = .read ((pending [.read 0 4]).base + 4 * 0) 4 :: [] ∧
    (pending [.read 60 4]).bus = .read ((pending [.read 60 4]).base + 4 * 15) 4 :: [] := by decide +kernel
theorem witness_RegWriteActsByIndex : 15 < 16 ∧ 15 ≠ 2 ∧
    (pending [.write 0 [1, 2, 3, 4]]).bus = .write ((pending []).base + 4 * 0) [1, 2, 3, 4] :: [] ∧
    (pending [.write 4 [1, 2, 3, 4]]).bus = .write ((pending []).base + 4 * 1) [1, 2, 3, 4] :: [] ∧
    (pending [.write 16 [1, 2, 3, 4]]).bus = .write ((pending []).base + 4 * 4) [1, 2, 3, 4] :: [] ∧
    (pending [.write 60 [1, 2, 3, 4]]).bus = .write ((pending []).base + 4 * 15) [1, 2, 3, 4] :: [] := by decide +kernel
theorem witness_ReservedAndReadOnlyRegisters :
    (pending [.read 36 4]).bus = (pending [.read 36 4]).regReadAccess 9 :: [] ∧
    (pending [.read 8 4]).bus = (pending [.read 8 4]).regReadAccess 2 :: [] ∧
    (pending [State.reset.regWriteAccess 3 5]).bus = (pending [State.reset.regWriteAccess 3 5]).regWriteAccess 3 5 :: [] ∧
    (pending [State.reset.regWriteAccess 15 5]).bus = (pending [State.reset.regWriteAccess 15 5]).regWriteAccess 15 5 :: [] := by
  decide +kernel
theorem witness_StatusAndActCtrlBits : 0 < 32 ∧ 31 < 32 := by decide
theorem witness_ReadAfterCommandReturnsItsResult : decodeWord 0x10 = .ok .add ∧
    (pending [State.reset.regWriteAccess cmdIndex 0x10, State.reset.regReadAccess 3]).bus
      = (pending []).regWriteAccess cmdIndex 0x10 :: (pending []).regReadAccess 3 :: [] := by decide +kernel
theorem witness_UnreadSettingsCannotChangeResults :
    (unit satRecord 0 0).active ≠ (unit narRecord 0 0).active ∧ (unit satRecord 0 0).nbanks = (unit narRecord 0 0).nbanks ∧
    (unit satRecord 0 0).res = (unit narRecord 0 0).res ∧ (unit satRecord 0 0).active.rnd = (unit narRecord 0 0).active.rnd ∧
    (unit satRecord 0 0).acc = (unit narRecord 0 0).acc ∧ (unit satRecord 0 0).pstk = (unit narRecord 0 0).pstk ∧
    (unit trnRecord 0 0).active.sat = (unit ⟨0x80000001#32, 5, false, false⟩ 0 0).active.sat ∧
    (unit trnRecord 0 0).active.min = (unit ⟨0x80000001#32, 5, false, false⟩ 0 0).active.min := by decide +kernel
theorem witness_SelectedBankIsActiveAndVisible :
    (unit satRecord 0 0).nbanks ≤ 255 ∧ 0 < (unit satRecord 0 0).nbanks ∧ (unit satRecord 0 0).banks[0]? = some satRecord ∧
    (unit satRecord 0 0).nbanks ≤ 4 ∧ defRecord = ⟨0x80000001#32, 0x7FFFFFFF#32, true, false⟩ := by decide +kernel
theorem witness_Fix2intUndoesInt2fix : -32768 ≤ (-32768 : Int) ∧ (32767 : Int) ≤ 32767 := by decide
theorem witness_SubUndoesAdd :
    -2147483648 ≤ (0x80000000#32).toInt + (0#32).toInt ∧ (0x7FFFFFFE#32).toInt + (1#32).toInt ≤ 2147483647 := by decide +kernel
theorem witness_MulRoundsTheExactProduct :
    (-3 : Int) = (unit defRecord 3 0xFFFFFFFF#32).opa.toInt * (unit defRecord 3 0xFFFFFFFF#32).opb.toInt ∧
    (0 : Int) = (if (unit defRecord 3 0xFFFFFFFF#32).active.rnd then (-3 : Int).sign * (((-3 : Int).natAbs + 32768) / 65536 : Nat)
      else (-3) / 65536) := by decide +kernel
theorem witness_DivIsTheSignedRoundedQuotient :
    43691 = (if (unit defRecord 0x20000#32 0x30000#32).active.rnd then
        (2 * ((0x20000#32).toInt.natAbs * 65536) + (0x30000#32).toInt.natAbs) / (2 * (0x30000#32).toInt.natAbs)
      else (0x20000#32).toInt.natAbs * 65536 / (0x30000#32).toInt.natAbs) ∧
    false = ((0x20000#32).msb != (0x30000#32).msb) := by decide +kernel
theorem witness_ModIsTheTruncatingRemainder : (unit defRecord 5 0).opb = 0 ∧ (unit defRecord 5 3).opb ≠ 0 := by decide +kernel
theorem witness_SqrtIsTheRoundedRoot : (0#32).toInt ≤ 0 ∧ 0 < (1#32).toInt ∧ defRecord.rnd = true ∧ trnRecord.rnd = false := by
  decide +kernel
theorem witness_Log2OverflowsToMinOrSentinel : (2#32).toInt ≤ 2 ∧ (0x80000000#32).toInt ≤ 2 := by decide +kernel
theorem witness_Log2BelowOneNegatesTheReciprocal : 2 < (3#32).toInt ∧ (0xFFFF#32).toInt < 65536 ∧
    1431655765 = (if defRecord.rnd then (2 * 4294967296 + (3#32).toNat) / (2 * (3#32).toNat) else 4294967296 / (3#32).toNat) := by
  decide +kernel
theorem witness_Log2HalvingAddsOne : 131072 ≤ (0x20000#32).toInt ∧ 131072 ≤ (0x7FFFFFFF#32).toInt := by decide +kernel
theorem witness_Log2FractionBits : 65536 ≤ (0x10000#32).toInt ∧ (0x1FFFF#32).toInt < 131072 := by decide +kernel
theorem witness_Log2OfPowersOfTwoIsExact : (unit defRecord 4 0).opa = BitVec.ofNat 32 (2 ^ 2) ∧
    (unit defRecord 0x40000000#32 0).opa = BitVec.ofNat 32 (2 ^ 30) := by decide +kernel
theorem witness_Log2OfOneOrMoreIsBounded : 65536 ≤ (0x10000#32).toInt := by decide +kernel
theorem witness_ExpFollowsTheSeries :
    (0#32).toInt = 0 ∧ (0x10000#32).toInt = 65536 ∧ 681391 ≤ (0xA65AF#32).toInt ∧ (0xFFF59A51#32).toInt ≤ -681391 ∧
    (0xFFFF0000#32).toInt ≠ 0 ∧ -681391 < (0xFFF59A52#32).toInt ∧ (0xA65AE#32).toInt < 681391 := by decide +kernel
theorem witness_LnRefinesTheReducedOperand : (0#32).toInt ≤ 0 ∧ 0 < (1#32).toInt := by decide +kernel
theorem witness_PowMultipliesForIntegerExponents : (unit defRecord 2 0).opb = 0 ∧ 32766 < 32767 ∧
    (unit defRecord 2 0x7FFF0000#32).opb = BitVec.ofNat 32 ((32766 + 1) * 65536) := by decide +kernel
theorem witness_PowComposesExpMulLnOtherwise :
    (unit defRecord 2 0x80000000#32).opb.toInt < 0 ∧ (unit defRecord 2 1).opb.toNat % 65536 ≠ 0 := by decide +kernel
theorem witness_PolyScriptEvaluatesHorner :
    (pending (State.reset.lineAccesses (.poly 1 2 [3, 4]) ++ [.reset])).bus
      = (pending (State.reset.lineAccesses (.poly 1 2 [3, 4]) ++ [.reset])).lineAccesses (.poly 1 2 [3, 4]) ++ [.reset] := by
  decide +kernel
theorem witness_AtanIsOdd : -2147418112 < (0x80010001#32).toInt ∧ (0x7FFEFFFF#32).toInt < 2147418112 := by decide +kernel
theorem witness_CoshIsEven : (0x80000001#32) ≠ 0x80000000#32 := by decide
theorem witness_RealRoundTripLosesLessThanOneLsb :
    -2147483648 ≤ ratTrunc (realScaled id true (157 / 50)) ∧ ratTrunc (realScaled id true (157 / 50)) ≤ 2147483647 := by
  decide +kernel

end Witnesses

end Sys2Proof.Tests
end

section
/-! PROOFS. What one command can do, and the invariant of the unit: it holds after reset and every step keeps it (`00_scope.md`). -/

namespace Sys2Proof.Machine

section Commands

/-- A command whose row of R47 writes `RES` and nothing else completes by one write of `RES`. -/
theorem exec_of_writesResOnly {i : Instr} (h : writesResOnly i = true) (s : State) :
    ∃ v, exec i s = .next (s.writeRes v) := by
  cases i with
  | nop | cfgset | cfgsel | pinit | pstep => cases h
  | _ => exact ⟨_, rfl⟩

/-- The four validations of R61, as propositions. -/
theorem cfgsetValid_iff {s : State} {bank rndv satv : Nat} :
    cfgsetValid s bank rndv satv = true ↔
      bank < s.nbanks ∧ s.operandA < s.operandB ∧ rndv ≤ 1 ∧ satv ≤ 1 := by
  simp [cfgsetValid, and_assoc]

/-- CFGSET with its validations met writes the whole bank (R61). -/
theorem exec_cfgset_of_valid {s : State} {bank rndv satv : Nat} (h : cfgsetValid s bank rndv satv = true) :
    exec (.cfgset bank rndv satv) s =
      .next (((s.writeBank bank ⟨s.opa, s.opb, rndv == 1, satv == 1⟩).writeRes 1).setCfgerr false) := by
  simp [exec, execCfgset, h]

/-- CFGSET with a validation failed writes no bank (R61). -/
theorem exec_cfgset_of_not_valid {s : State} {bank rndv satv : Nat} (h : ¬ cfgsetValid s bank rndv satv = true) :
    exec (.cfgset bank rndv satv) s = .next ((s.writeRes 0).setCfgerr true) := by
  simp [exec, execCfgset, h]

/-- PSTEP with `PSTK` set leaves the accumulator alone (R108). -/
theorem pstepAcc_of_stuck {s : State} (h : s.pstk = true) : pstepAcc s = s := by
  simp [pstepAcc, h]

/-- PSTEP with `PSTK` clear either meets the sentinel product and sticks, or writes `ACC` only (R108). -/
theorem pstepAcc_of_not_stuck {s : State} (h : s.pstk = false) :
    pstepAcc s = (s.writeAcc sentinel).setPstk true ∨ ∃ v, pstepAcc s = s.writeAcc v := by
  by_cases ht : fxMul s.active (raw s.acc) s.operandA = sentinel
  · exact .inl (by simp [pstepAcc, h, ht])
  · exact .inr ⟨_, by simp only [pstepAcc, h, ht, if_false, Bool.false_eq_true]; rfl⟩

/-- All a command that answers a next state can do, by the "Writes" column of R47. -/
theorem exec_next_cases {i : Instr} {s t : State} (h : exec i s = .next t) :
    (writesResOnly i = true ∧ ∃ v, t = s.writeRes v) ∨
    (i = .nop ∧ t = s) ∨
    (∃ bank rndv satv, i = .cfgset bank rndv satv ∧ cfgsetValid s bank rndv satv = true ∧
      t = ((s.writeBank bank ⟨s.opa, s.opb, rndv == 1, satv == 1⟩).writeRes 1).setCfgerr false) ∨
    (∃ bank rndv satv, i = .cfgset bank rndv satv ∧ ¬ cfgsetValid s bank rndv satv = true ∧
      t = (s.writeRes 0).setCfgerr true) ∨
    (∃ bank, i = .cfgsel bank ∧ t = s.writeSel (if bank < s.nbanks then BitVec.ofNat 8 bank else 0xFF#8)) ∨
    (i = .pinit ∧ t = ((s.writeAcc s.operandA).setPstk false).writeRes s.operandA) ∨
    (i = .pstep ∧ t = (pstepAcc s).writeRes (raw (pstepAcc s).acc)) := by
  by_cases hw : writesResOnly i = true
  · obtain ⟨v, hv⟩ := exec_of_writesResOnly hw s
    rw [hv] at h
    cases h
    exact .inl ⟨hw, v, rfl⟩
  refine .inr ?_
  cases i with
  | nop => cases h; exact .inl ⟨rfl, rfl⟩
  | cfgset bank rndv satv =>
    by_cases hv : cfgsetValid s bank rndv satv = true
    · rw [exec_cfgset_of_valid hv] at h
      cases h
      exact .inr (.inl ⟨bank, rndv, satv, rfl, hv, rfl⟩)
    · rw [exec_cfgset_of_not_valid hv] at h
      cases h
      exact .inr (.inr (.inl ⟨bank, rndv, satv, rfl, hv, rfl⟩))
  | cfgsel bank => cases h; exact .inr (.inr (.inr (.inl ⟨bank, rfl, rfl⟩)))
  | pinit => cases h; exact .inr (.inr (.inr (.inr (.inl ⟨rfl, rfl⟩))))
  | pstep => cases h; exact .inr (.inr (.inr (.inr (.inr ⟨rfl, rfl⟩))))
  | _ => exact absurd rfl hw

end Commands

section Invariant
variable {s t : State}

/-- `State.sound` with its clauses as named facts (`State.sound_iff` ties it to the model's check). -/
structure State.Sound (s : State) : Prop where
  banks_valid : ∀ b ∈ s.banks, b.valid = true
  one_le_nbanks : 1 ≤ s.nbanks
  nbanks_le : s.nbanks ≤ 255
  sel_legal : s.sel.toNat < s.nbanks ∨ s.sel = 0xFF#8
  base_aligned : s.base % 64 = 0
  stuck_acc : s.pstk = true → s.acc = sentinelWord

theorem State.sound_iff : s.sound = true ↔ s.Sound := by
  have clauses : s.sound = true ↔ (∀ b ∈ s.banks, b.valid = true) ∧ 1 ≤ s.nbanks ∧ s.nbanks ≤ 255 ∧
      (s.sel.toNat < s.nbanks ∨ s.sel = 0xFF#8) ∧ s.base % 64 = 0 ∧
      (s.pstk = true → s.acc = sentinelWord) := by
    simp [State.sound, sentinelWord, and_assoc, imp_iff_not_or]
  rw [clauses]
  exact ⟨fun ⟨h1, h2, h3, h4, h5, h6⟩ => ⟨h1, h2, h3, h4, h5, h6⟩,
    fun ⟨h1, h2, h3, h4, h5, h6⟩ => ⟨h1, h2, h3, h4, h5, h6⟩⟩

/-- The invariant reads the banks, `SEL`, `BASE`, `ACC` and `PSTK` only. -/
theorem State.Sound.of_frame (hs : s.Sound) (hbanks : t.banks = s.banks) (hsel : t.sel = s.sel)
    (hbase : t.base = s.base) (hacc : t.acc = s.acc) (hpstk : t.pstk = s.pstk) : t.Sound := by
  have hn : t.nbanks = s.nbanks := congrArg List.length hbanks
  obtain ⟨h1, h2, h3, h4, h5, h6⟩ := hs
  rw [← hbanks] at h1
  rw [← hn] at h2 h3
  rw [← hn, ← hsel] at h4
  rw [← hbase] at h5
  rw [← hacc, ← hpstk] at h6
  exact ⟨h1, h2, h3, h4, h5, h6⟩

theorem State.Sound.writeRes (hs : s.Sound) (v : Int) : (s.writeRes v).Sound :=
  hs.of_frame rfl rfl rfl rfl rfl

theorem State.Sound.setCfgerr (hs : s.Sound) (b : Bool) : (s.setCfgerr b).Sound :=
  hs.of_frame rfl rfl rfl rfl rfl

theorem State.Sound.retire (hs : s.Sound) (r : Reply) : (s.retire r).Sound :=
  hs.of_frame rfl rfl rfl rfl rfl

theorem State.Sound.reportIllegal (hs : s.Sound) : s.reportIllegal.Sound :=
  hs.of_frame rfl rfl rfl rfl rfl

theorem State.Sound.writeReg (hs : s.Sound) (i : Nat) (v : Word) : (s.writeReg i v).Sound := by
  obtain h | h | h | h := s.writeReg_cases i v <;> rw [h]
  · exact hs.of_frame rfl rfl rfl rfl rfl
  · exact hs.of_frame rfl rfl rfl rfl rfl
  · exact hs.of_frame (by simp) (by simp) (by simp) (by simp) (by simp)
  · exact hs

/-- A valid record may be written to any bank (R61). -/
theorem State.Sound.writeBank (hs : s.Sound) (k : Nat) {b : Settings} (hb : b.valid = true) :
    (s.writeBank k b).Sound where
  banks_valid c hc := (List.mem_or_eq_of_mem_set hc).elim (hs.banks_valid c) (fun e => e ▸ hb)
  one_le_nbanks := by simpa using hs.one_le_nbanks
  nbanks_le := by simpa using hs.nbanks_le
  sel_legal := by simpa using hs.sel_legal
  base_aligned := hs.base_aligned
  stuck_acc := hs.stuck_acc

/-- A selector that names a bank, or 0xFF, may be stored (R62). -/
theorem State.Sound.writeSel (hs : s.Sound) {k : BitVec 8} (hk : k.toNat < s.nbanks ∨ k = 0xFF#8) :
    (s.writeSel k).Sound :=
  { hs with sel_legal := hk }

/-- `ACC` may take any value while `PSTK` is clear (R108). -/
theorem State.Sound.writeAcc (hs : s.Sound) (v : Int) (hp : s.pstk = false) : (s.writeAcc v).Sound :=
  { hs with stuck_acc := fun h => absurd (h.symm.trans hp) (by decide) }

/-- `ACC` and `PSTK` written together: setting `PSTK` needs the sentinel (R107, R108). -/
theorem State.Sound.writeAcc_setPstk (hs : s.Sound) {v : Int} {p : Bool}
    (h : p = true → word v = sentinelWord) : ((s.writeAcc v).setPstk p).Sound :=
  { hs with stuck_acc := h }

/-- Reset of a unit with parameters in the range of R4 and R30 (R19). -/
theorem State.Sound.resetOf {nbanks base : Nat} (h1 : 1 ≤ nbanks) (h2 : nbanks ≤ 255) (hb : base % 64 = 0) :
    (State.resetOf nbanks base).Sound where
  banks_valid b h := (List.eq_of_mem_replicate h) ▸ (by decide : defaultSettings.valid = true)
  one_le_nbanks := by simpa [State.nbanks, State.resetOf] using h1
  nbanks_le := by simpa [State.nbanks, State.resetOf] using h2
  sel_legal := .inr rfl
  base_aligned := hb
  stuck_acc h := absurd h (by simp [State.resetOf])

theorem State.Sound.resetUnit (hs : s.Sound) : s.resetUnit.Sound :=
  (State.Sound.resetOf hs.one_le_nbanks hs.nbanks_le hs.base_aligned).of_frame rfl rfl rfl rfl rfl

/-- The record CFGSET writes is valid, because its own test is R13's (R61). -/
theorem State.Sound.cfgset (hs : s.Sound) {bank rndv satv : Nat} (hv : cfgsetValid s bank rndv satv = true) :
    (s.writeBank bank ⟨s.opa, s.opb, rndv == 1, satv == 1⟩).Sound := by
  obtain ⟨-, hlt, -, -⟩ := cfgsetValid_iff.mp hv
  exact hs.writeBank bank (decide_eq_true hlt)

/-- CFGSEL stores the index of a bank, which fits the eight bits of `SEL`, or 0xFF (R62). -/
theorem State.Sound.cfgsel (hs : s.Sound) (bank : Nat) :
    (s.writeSel (if bank < s.nbanks then BitVec.ofNat 8 bank else 0xFF#8)).Sound := by
  refine hs.writeSel ?_
  by_cases hb : bank < s.nbanks
  · have hfit : bank % 2 ^ 8 = bank := Nat.mod_eq_of_lt (by have := hs.nbanks_le; omega)
    left
    rwa [if_pos hb, BitVec.toNat_ofNat, hfit]
  · right
    rw [if_neg hb]

/-- PSTEP sets `PSTK` only together with the sentinel in `ACC`, and keeps `ACC` once it is set (R108). -/
theorem State.Sound.pstepAcc (hs : s.Sound) : (pstepAcc s).Sound := by
  cases hp : s.pstk with
  | true => rwa [pstepAcc_of_stuck hp]
  | false =>
    obtain h | ⟨v, h⟩ := pstepAcc_of_not_stuck hp <;> rw [h]
    · exact hs.writeAcc_setPstk (fun _ => by decide)
    · exact hs.writeAcc v hp

/-- Every command keeps the invariant, whatever its fields. -/
theorem State.Sound.exec {i : Instr} (hs : s.Sound) (h : exec i s = .next t) : t.Sound := by
  obtain ⟨-, v, rfl⟩ | ⟨-, rfl⟩ | ⟨bank, rndv, satv, -, hv, rfl⟩ | ⟨bank, rndv, satv, -, -, rfl⟩ |
    ⟨bank, -, rfl⟩ | ⟨-, rfl⟩ | ⟨-, rfl⟩ := exec_next_cases h
  · exact hs.writeRes v
  · exact hs
  · exact ((hs.cfgset hv).writeRes 1).setCfgerr false
  · exact (hs.writeRes 0).setCfgerr true
  · exact hs.cfgsel bank
  · exact (hs.writeAcc_setPstk (p := false) nofun).writeRes _
  · exact hs.pstepAcc.writeRes _

/-- Every transaction keeps the invariant. -/
theorem State.Sound.perform {tr : Transaction} (hs : s.Sound) (h : perform s tr = .next t) : t.Sound := by
  obtain ⟨i, -, rfl⟩ | ⟨v, i, -, -, hexec⟩ | ⟨v, e, -, -, rfl⟩ | ⟨i, v, -, -, rfl⟩ | ⟨-, rfl⟩ :=
    perform_next_cases h
  · exact hs
  · exact hs.exec hexec
  · exact hs.reportIllegal
  · exact hs.writeReg i v
  · exact hs.resetUnit

/-- Every step keeps the invariant. -/
theorem State.Sound.step (hs : s.Sound) (h : step s = .next t) : t.Sound := by
  obtain ⟨-, rfl⟩ | ⟨a, rest, tr, u, -, -, hu, rfl⟩ := step_next_cases h
  · exact hs
  · exact (hs.perform hu).retire _

end Invariant

/-- Settles O10: `State.Sound` is kept by the idle step, by every transaction and by the answer on the bus. -/
theorem everyStepKeepsTheStateSound : Obligations.EveryStepKeepsTheStateSound :=
  fun _ _ hs h => State.sound_iff.mpr ((State.sound_iff.mp hs).step h)

/-- Settles O11: the parameters of `Config` are in the range in which a unit is sound after reset. -/
theorem resetStateIsSound : Obligations.ResetStateIsSound :=
  State.sound_iff.mpr (State.Sound.resetOf (by decide) (by decide) (by decide))

end Sys2Proof.Machine
end

section
/-! PROOFS. The state family: what each command keeps (R47), which settings are active after CFGSET and CFGSEL (R15), and the
registers that show flags, settings and the reset values (R16, R19). -/

namespace Sys2Proof.Machine

section Frames
variable {i : Instr} {s t : State}

/-- Every command completes, whatever its fields and the state (R150). -/
theorem exec_completes (i : Instr) (s : State) : ∃ t, exec i s = .next t := by
  cases i with
  | cfgset bank rndv satv =>
    by_cases hv : cfgsetValid s bank rndv satv = true
    · exact ⟨_, exec_cfgset_of_valid hv⟩
    · exact ⟨_, exec_cfgset_of_not_valid hv⟩
  | _ => exact ⟨_, rfl⟩

/-- A Horner step writes `ACC` and `PSTK` and nothing else (R108). -/
theorem pstepAcc_eq_writeAcc_setPstk (s : State) : ∃ v p, pstepAcc s = (s.writeAcc v).setPstk p := by
  cases hp : s.pstk with
  | true => exact ⟨raw s.acc, true, by simp [pstepAcc_of_stuck hp, State.writeAcc, State.setPstk, ← hp]⟩
  | false =>
    obtain h | ⟨v, h⟩ := pstepAcc_of_not_stuck hp
    · exact ⟨_, _, h⟩
    · exact ⟨v, false, by simp [h, State.writeAcc, State.setPstk, ← hp]⟩

/-- No command writes the operand registers, `ILL`, the parameters or the bus (R10, R47). -/
theorem exec_keeps_operands_and_bus (h : exec i s = .next t) :
    t.opa = s.opa ∧ t.opb = s.opb ∧ t.base = s.base ∧ t.bus = s.bus ∧ t.reply = s.reply ∧ t.ill = s.ill ∧
      t.nbanks = s.nbanks := by
  obtain ⟨-, v, rfl⟩ | ⟨-, rfl⟩ | ⟨bank, rndv, satv, -, -, rfl⟩ | ⟨bank, rndv, satv, -, -, rfl⟩ |
    ⟨bank, -, rfl⟩ | ⟨-, rfl⟩ | ⟨-, rfl⟩ := exec_next_cases h
  case inr.inr.inr.inr.inr.inr =>
    obtain ⟨v, p, hacc⟩ := pstepAcc_eq_writeAcc_setPstk s
    simp [hacc]
  all_goals simp

/-- NOP and CFGSEL are the commands without a result (R11, R47). -/
theorem exec_keeps_res (hi : i = .nop ∨ ∃ k, i = .cfgsel k) (h : exec i s = .next t) : t.res = s.res := by
  obtain rfl | ⟨k, rfl⟩ := hi <;> cases h <;> rfl

/-- Only the Horner commands write `ACC` and `PSTK` (R12, R47). -/
theorem exec_keeps_acc (hinit : i ≠ .pinit) (hstep : i ≠ .pstep) (h : exec i s = .next t) :
    t.acc = s.acc ∧ t.pstk = s.pstk := by
  obtain ⟨-, v, rfl⟩ | ⟨-, rfl⟩ | ⟨bank, rndv, satv, -, -, rfl⟩ | ⟨bank, rndv, satv, -, -, rfl⟩ |
    ⟨bank, -, rfl⟩ | ⟨hi, -⟩ | ⟨hi, -⟩ := exec_next_cases h
  case inr.inr.inr.inr.inr.inl => exact absurd hi hinit
  case inr.inr.inr.inr.inr.inr => exact absurd hi hstep
  all_goals exact ⟨rfl, rfl⟩

/-- Only CFGSET writes the banks and `CFGERR` (R16, R47). -/
theorem exec_keeps_banks (hi : ∀ k r v, i ≠ .cfgset k r v) (h : exec i s = .next t) :
    t.banks = s.banks ∧ t.cfgerr = s.cfgerr := by
  obtain ⟨-, v, rfl⟩ | ⟨-, rfl⟩ | ⟨bank, rndv, satv, hset, -, -⟩ | ⟨bank, rndv, satv, hset, -, -⟩ |
    ⟨bank, -, rfl⟩ | ⟨-, rfl⟩ | ⟨-, rfl⟩ := exec_next_cases h
  case inr.inr.inl | inr.inr.inr.inl => exact absurd hset (hi bank rndv satv)
  case inr.inr.inr.inr.inr.inr =>
    obtain ⟨v, p, hacc⟩ := pstepAcc_eq_writeAcc_setPstk s
    simp [hacc]
  all_goals exact ⟨rfl, rfl⟩

/-- Only CFGSEL writes `SEL` (R47, R62). -/
theorem exec_keeps_sel (hi : ∀ k, i ≠ .cfgsel k) (h : exec i s = .next t) : t.sel = s.sel := by
  obtain ⟨-, v, rfl⟩ | ⟨-, rfl⟩ | ⟨bank, rndv, satv, -, -, rfl⟩ | ⟨bank, rndv, satv, -, -, rfl⟩ |
    ⟨bank, hsel, -⟩ | ⟨-, rfl⟩ | ⟨-, rfl⟩ := exec_next_cases h
  case inr.inr.inr.inr.inl => exact absurd hsel (hi bank)
  case inr.inr.inr.inr.inr.inr =>
    obtain ⟨v, p, hacc⟩ := pstepAcc_eq_writeAcc_setPstk s
    simp [hacc]
  all_goals rfl

/-- A command whose row names `RES` alone changes nothing else (R47). -/
theorem exec_writes_res_alone (hw : writesResOnly i = true) (h : exec i s = .next t) : t = { s with res := t.res } := by
  obtain ⟨v, hv⟩ := exec_of_writesResOnly hw s
  rw [hv] at h
  cases h
  rfl

end Frames

section ActiveSettings
variable {s : State}

/-- A bank write shows in the active settings exactly where it goes to the selected bank, and that bank exists (R15). -/
theorem State.writeBank_active (s : State) (k : Nat) (b : Settings) :
    (s.writeBank k b).active = if k = s.sel.toNat ∧ k < s.nbanks then b else s.active := by
  have hget : (s.writeBank k b).active = (s.banks.set k b)[s.sel.toNat]?.getD defaultSettings := by
    simp [State.active, List.getD_eq_getElem?_getD]
  rw [hget, List.getElem?_set]
  by_cases hk : k = s.sel.toNat
  · by_cases hn : k < s.nbanks
    · have hlen : s.sel.toNat < s.banks.length := hk ▸ hn
      simp [hk, hlen, State.nbanks]
    · have hlen : ¬ s.sel.toNat < s.banks.length := hk ▸ hn
      simp [hk, hlen, State.nbanks, State.active_of_none s (not_lt.mp hlen)]
  · simp [hk, State.active, List.getD_eq_getElem?_getD]

/-- Selecting an existing bank makes it active: its index fits the eight bits of `SEL` (R4, R15). -/
theorem State.writeSel_active_of_bank {k : Nat} {b : Settings} (hn : s.nbanks ≤ 255) (hk : k < s.nbanks)
    (hb : s.banks[k]? = some b) : (s.writeSel (BitVec.ofNat 8 k)).active = b := by
  have hfit : (BitVec.ofNat 8 k).toNat = k := by
    rw [BitVec.toNat_ofNat]
    omega
  simp [State.active, List.getD_eq_getElem?_getD, -BitVec.toNat_ofNat, hfit, hb]

/-- 0xFF names no bank, so the default settings are active (R4, R15). -/
theorem State.writeSel_active_of_none (hn : s.nbanks ≤ 255) : (s.writeSel 0xFF#8).active = defaultSettings :=
  State.active_of_none _ hn

end ActiveSettings

section Views

/-- A flag is the only bit of its one-bit vector. -/
@[simp] theorem getLsbD_bit (b : Bool) (k : Nat) : (bit b).getLsbD k = (decide (k = 0) && b) := by
  cases b <;> simp [bit]

/-- The bits of `STATUS`: three flags, then zeros (R16). -/
theorem State.getLsbD_status (s : State) (k : Nat) :
    s.status.getLsbD k = if k = 0 then s.ill else if k = 1 then s.cfgerr else if k = 2 then s.pstk else false := by
  simp only [State.status, BitVec.getLsbD_append, getLsbD_bit, BitVec.getLsbD_zero]
  match k with
  | 0 | 1 | 2 | k + 3 => simp

/-- The bits of `ACT_CTRL`: the two flags of the active settings, six zeros, `SEL`, then zeros (R15). -/
theorem State.getLsbD_actCtrl (s : State) (k : Nat) :
    s.actCtrl.getLsbD k =
      if k = 0 then s.active.rnd else if k = 1 then s.active.sat
      else if 8 ≤ k ∧ k < 16 then s.sel.getLsbD (k - 8) else false := by
  simp only [State.actCtrl, BitVec.getLsbD_append, getLsbD_bit, BitVec.getLsbD_zero]
  match k with
  | 0 | 1 | 2 | 3 | 4 | 5 | 6 | 7 => simp
  | k + 8 =>
    by_cases hsel : k < 8
    · simp [hsel, show k + 8 < 16 by omega]
    · simp [hsel, show ¬ k + 8 < 16 by omega]

/-- A pending reset is performed and leaves no answer (R165, logs 3, 5). -/
theorem step_of_reset {s : State} {rest : List Access} (hb : s.bus = .reset :: rest) :
    step s = .next (s.resetUnit.retire .none) :=
  step_of_perform (tr := .reset) hb rfl rfl

/-- `ACT_CTRL` while the default settings are active with `SEL` at 0xFF (R14, R15, R19). -/
theorem State.actCtrl_of_default {s : State} (ha : s.active = defaultSettings) (hs : s.sel = 0xFF#8) :
    s.actCtrl = 0x0000FF01#32 := by
  rw [State.actCtrl, ha, hs]
  decide

end Views

/-- Settles O8: every command completes, and each clause is the frame lemma for the state it names. -/
theorem everyCommandCompletesWithItsFrame : Obligations.EveryCommandCompletesWithItsFrame := by
  intro i s
  obtain ⟨t, h⟩ := exec_completes i s
  obtain ⟨hopa, hopb, hbase, hbus, hreply, hill, hnbanks⟩ := exec_keeps_operands_and_bus h
  exact ⟨t, h, hopa, hopb, hbase, hbus, hreply, hill, hnbanks, fun hi => exec_keeps_res hi h,
    fun ⟨hinit, hstep⟩ => exec_keeps_acc hinit hstep h, fun hi => exec_keeps_banks hi h,
    fun hi => exec_keeps_sel hi h, fun hw => exec_writes_res_alone hw h⟩

/-- Settles O23: a valid CFGSET is a bank write, and a bank write is active at once where `SEL` names the bank. -/
theorem cfgsetActsOnTheActiveSettingsAtOnce : Obligations.CfgsetActsOnTheActiveSettingsAtOnce := by
  intro s bank rndv satv
  by_cases hv : cfgsetValid s bank rndv satv = true
  · refine ⟨_, exec_cfgset_of_valid hv, ?_⟩
    obtain ⟨hbank, hlt, hr, hs⟩ := cfgsetValid_iff.mp hv
    have hraw : raw s.opa < raw s.opb := hlt
    simp [State.writeBank_active, hbank, hraw, hr, hs, beq_eq_decide]
  · refine ⟨_, exec_cfgset_of_not_valid hv, ?_⟩
    rw [if_neg (fun h => hv (cfgsetValid_iff.mpr h.2))]
    rfl

/-- Settles O24: CFGSEL writes `SEL` alone, and the two cases are those of R62. -/
theorem selectedBankIsActiveAndVisible : Obligations.SelectedBankIsActiveAndVisible := by
  intro s k b hn hbank hnone
  have hactive : (s.writeSel (if k < s.nbanks then BitVec.ofNat 8 k else 0xFF#8)).active = b := by
    by_cases hk : k < s.nbanks
    · rw [if_pos hk]
      exact State.writeSel_active_of_bank hn hk (hbank hk)
    · rw [if_neg hk, hnone (not_lt.mp hk)]
      exact State.writeSel_active_of_none hn
  exact ⟨_, rfl, hactive, congrArg Settings.min hactive, congrArg Settings.max hactive,
    by simp [State.readReg, State.actCtrl, bit, hactive]⟩

/-- Settles O12: the step is the reset of the unit, which selects the default settings. -/
theorem resetEventGivesTheResetTable : Obligations.ResetEventGivesTheResetTable := by
  intro s rest hb hn
  have hactive : (s.resetUnit.retire .none).active = defaultSettings := s.resetUnit_active hn
  refine ⟨_, step_of_reset hb, ?_, congrArg Settings.min hactive, congrArg Settings.max hactive,
    State.actCtrl_of_default hactive rfl⟩
  have hrest : s.bus.tail = rest := by rw [hb, List.tail_cons]
  rw [← hrest]
  rfl

/-- Settles O13: sixteen reads of one closed state. -/
theorem resetRegistersRead : Obligations.ResetRegistersRead :=
  ⟨by decide, rfl⟩

/-- Settles O18: the two registers bit by bit. -/
theorem statusAndActCtrlBits : Obligations.StatusAndActCtrlBits :=
  fun s k _ => ⟨s.getLsbD_status k, s.getLsbD_actCtrl k⟩

end Sys2Proof.Machine
end

section
/-! PROOFS. The register space (`20_memory.md`): which accesses a step refuses, what a read returns, what a write does, and the
command a write to `CMD` runs. -/

namespace Sys2Proof.Machine

section Accesses
variable {base addr i : Nat} {lanes : List Byte} {a : Access}

/-- The byte addresses that are registers, and which register each is (R30, R36). -/
theorem regIndex_eq_some_iff : regIndex base addr = some i ↔ i < 16 ∧ addr = base + 4 * i := by
  unfold regIndex Config.nregs
  split_ifs with h
  · rw [Option.some.injEq]
    omega
  · simp only [false_iff]
    omega

theorem regIndex_eq_none_iff : regIndex base addr = none ↔ ¬ ∃ i, i < 16 ∧ addr = base + 4 * i := by
  simp only [Option.eq_none_iff_forall_ne_some, ne_eq, regIndex_eq_some_iff, not_exists]

/-- Four byte lanes, and no other number of them, carry a word (R33, log 20). -/
theorem lanesWord_eq_none_iff : lanesWord lanes = none ↔ lanes.length ≠ 4 := by
  match lanes with
  | [] | [_] | [_, _] | [_, _, _] | [_, _, _, _] | _ :: _ :: _ :: _ :: _ :: _ => simp [lanesWord]

/-- A read is no transaction where its width or its address is refused (R34, R36). -/
theorem classify_read_eq_none_iff {width : Nat} :
    classify base (.read addr width) = none ↔ ¬ Admitted base (.read addr width) := by
  by_cases hw : width = 4
  · simp only [classify, Admitted, hw, if_true, true_and, Option.map_eq_none_iff, regIndex_eq_none_iff]
  · simp only [classify, Admitted, hw, if_false, false_and, not_false_eq_true]

/-- A write is no transaction where the number of its lanes or its address is refused (R35, R36). -/
theorem classify_write_eq_none_iff :
    classify base (.write addr lanes) = none ↔ ¬ Admitted base (.write addr lanes) := by
  have hnone : classify base (.write addr lanes) = none ↔ regIndex base addr = none ∨ lanesWord lanes = none := by
    cases hi : regIndex base addr <;> cases hv : lanesWord lanes <;> simp [classify, hi, hv]
  rw [hnone, regIndex_eq_none_iff, lanesWord_eq_none_iff, Admitted, ← not_and_or, and_comm]

/-- The unit refuses exactly the accesses R36 does not admit. -/
theorem classify_eq_none_iff : classify base a = none ↔ ¬ Admitted base a := by
  cases a with
  | read addr width => exact classify_read_eq_none_iff
  | write addr lanes => exact classify_write_eq_none_iff
  | reset => simp [classify, Admitted]

end Accesses

section Steps
variable {s : State} {a : Access} {rest : List Access} {i : Nat} {v w : Word}

/-- Every transaction completes (R38, R150). -/
theorem perform_completes (s : State) (tr : Transaction) : ∃ u, perform s tr = .next u := by
  cases tr with
  | regRead i => exact ⟨_, rfl⟩
  | reset => exact ⟨_, rfl⟩
  | regWrite i v =>
    by_cases hi : i = cmdIndex
    · cases hw : decodeWord v with
      | ok j =>
        obtain ⟨u, hu⟩ := exec_completes j s
        exact ⟨u, by simp [perform, hi, runCommand, hw, hu]⟩
      | error e => exact ⟨s.reportIllegal, by simp [perform, hi, runCommand, hw]⟩
    · exact ⟨s.writeReg i v, by simp [perform, hi]⟩

/-- A step is idle, or refuses an access that is no transaction, or performs one and answers a next state: the three ways
R6, R36 and R164 leave. -/
theorem step_cases (s : State) :
    (s.bus = [] ∧ step s = .next s) ∨
    (∃ a rest, s.bus = a :: rest ∧ classify s.base a = none ∧ step s = .refused (.busError a)) ∨
    (∃ a rest tr t, s.bus = a :: rest ∧ classify s.base a = some tr ∧ step s = .next t) := by
  match hb : s.bus with
  | [] => exact .inl ⟨rfl, by simp [step, hb]⟩
  | a :: rest =>
    cases hc : classify s.base a with
    | none => exact .inr (.inl ⟨a, rest, rfl, hc, by simp [step, hb, hc]⟩)
    | some tr =>
      obtain ⟨u, hu⟩ := perform_completes s tr
      exact .inr (.inr ⟨a, rest, tr, _, rfl, hc, step_of_perform hb hc hu⟩)

/-- A step is refused exactly on an access that is no transaction (R36, log 4). -/
theorem step_eq_refused_iff {r : Refusal} :
    step s = .refused r ↔ ∃ a rest, s.bus = a :: rest ∧ classify s.base a = none ∧ r = .busError a := by
  constructor
  · intro h
    obtain ⟨-, hs⟩ | ⟨a, rest, hb, hc, hs⟩ | ⟨a, rest, tr, t, -, -, hs⟩ := step_cases s <;> rw [hs] at h <;> cases h
    exact ⟨a, rest, hb, hc, rfl⟩
  · rintro ⟨a, rest, hb, hc, rfl⟩
    simp [step, hb, hc]

/-- The oldest access done, where nothing but it has left the bus list (logs 1, 3). -/
theorem State.retire_eq {u : State} (hb : u.bus = a :: rest) (r : Reply) :
    u.retire r = { u with bus := rest, reply := r } := by
  simp [State.retire, hb]

/-- A register read answers the content and changes no state of the unit (R34). -/
theorem step_of_regRead (hb : s.bus = a :: rest) (hc : classify s.base a = some (.regRead i)) :
    step s = .next { s with bus := rest, reply := .data (wordLanes (s.readReg i)) } := by
  rw [step_of_perform hb hc rfl, State.retire_eq hb]
  rfl

/-- A register write touches the operand registers and `ILL` only, so not the bus (R35). -/
theorem State.writeReg_bus (s : State) (i : Nat) (v : Word) : (s.writeReg i v).bus = s.bus := by
  obtain h | h | h | h := s.writeReg_cases i v <;> simp [h]

/-- A register write other than a command is `writeReg` and the answer "written" (R35). -/
theorem step_of_regWrite (hb : s.bus = a :: rest) (hc : classify s.base a = some (.regWrite i v)) (hi : i ≠ cmdIndex) :
    step s = .next { s.writeReg i v with bus := rest, reply := .written } := by
  have hp : perform s (.regWrite i v) = .next (s.writeReg i v) := if_neg hi
  rw [step_of_perform hb hc hp, State.retire_eq ((s.writeReg_bus i v).trans hb)]
  rfl

/-- A legal command word written to `CMD` is executed, and the answer is "written" (R38, R45). -/
theorem step_of_command {j : Instr} (hb : s.bus = s.regWriteAccess cmdIndex w :: rest) (hw : decodeWord w = .ok j) :
    step s = onNext (fun t => { t with bus := rest, reply := .written }) (exec j s) := by
  obtain ⟨t, ht⟩ := exec_completes j s
  obtain ⟨-, -, -, hbus, -⟩ := exec_keeps_operands_and_bus ht
  have hp : perform s (.regWrite cmdIndex w) = .next t := by simp [perform, runCommand, hw, ht]
  rw [step_of_perform hb (classify_regWriteAccess s (by decide) w) hp, State.retire_eq (hbus.trans hb), ht]
  rfl

/-- A run goes on from the state its first step answers. -/
theorem run_succ_of_step {M : Host.Core} {s t : M.State} (k : Nat) (h : M.step s = .next t) :
    M.run (k + 1) s = M.run k t := by
  simp only [Host.Core.run, h]

end Steps

section Registers
variable {s : State} {i : Nat}

/-- `CMD` and the reserved indices read 0 (R37). -/
theorem State.readReg_of_reserved (s : State) (h : i = 2 ∨ 9 ≤ i) : s.readReg i = 0 := by
  match i with
  | 2 => rfl
  | 0 | 1 | 3 | 4 | 5 | 6 | 7 | 8 => omega
  | _ + 9 => rfl

/-- Writes to registers other than `OPA`, `OPB` and `STATUS` are ignored (R37). -/
theorem State.writeReg_of_ignored (s : State) (v : Word) (h0 : i ≠ 0) (h1 : i ≠ 1) (h4 : i ≠ 4) : s.writeReg i v = s := by
  match i with
  | 0 | 1 | 4 => contradiction
  | 2 | 3 | _ + 5 => rfl

/-- A write to `STATUS` touches `ILL` alone: bit 0 set clears it (R35). -/
theorem State.writeStatus_eq (s : State) (v : Word) : s.writeStatus v = { s with ill := s.ill && !v.getLsbD 0 } := by
  unfold State.writeStatus
  cases v.getLsbD 0 <;> simp

/-- Bit 0 of a word is bit 0 of its lowest lane (R33). -/
theorem getLsbD_zero_of_lanes (b0 b1 b2 b3 : Byte) : (b3 ++ b2 ++ b1 ++ b0).getLsbD 0 = b0.getLsbD 0 := by
  simp only [BitVec.getLsbD_append, show (0 : Nat) < 8 by decide, if_true]

/-- Four lanes at `BASE + 4*i` are the write of their little-endian word to register `i` (R33, R35). -/
theorem classify_write_lanes (s : State) (hi : i < 16) (b0 b1 b2 b3 : Byte) :
    classify s.base (.write (s.base + 4 * i) [b0, b1, b2, b3]) = some (.regWrite i (b3 ++ b2 ++ b1 ++ b0)) := by
  have hidx : regIndex s.base (s.base + 4 * i) = some i := regIndex_regAddr s hi
  simp [classify, hidx, lanesWord]

end Registers

section Fetch

/-- A Horner step that meets the sentinel product sticks (R108). -/
theorem pstepAcc_of_sentinel_product {s : State} (hp : ¬ s.pstk = true)
    (ht : fxMul s.active (raw s.acc) s.operandA = sentinel) :
    pstepAcc s = (s.writeAcc sentinel).setPstk true := by
  simp [pstepAcc, hp, ht]

/-- Any other product is added to `OPB` (R108). -/
theorem pstepAcc_of_product {s : State} (hp : ¬ s.pstk = true)
    (ht : ¬ fxMul s.active (raw s.acc) s.operandA = sentinel) :
    pstepAcc s = s.writeAcc (fxAdd (fxMul s.active (raw s.acc) s.operandA) s.operandB) := by
  simp only [pstepAcc, if_neg hp, if_neg ht]

/-- A Horner step neither reads nor writes the list of pending accesses (R108, log 1). -/
theorem pstepAcc_commutes_with_bus (s : State) (bus : List Access) :
    pstepAcc { s with bus := bus } = { pstepAcc s with bus := bus } := by
  by_cases hp : s.pstk = true
  · rw [pstepAcc_of_stuck hp, pstepAcc_of_stuck (s := { s with bus := bus }) hp]
  by_cases ht : fxMul s.active (raw s.acc) s.operandA = sentinel
  · rw [pstepAcc_of_sentinel_product hp ht, pstepAcc_of_sentinel_product (s := { s with bus := bus }) hp ht]
    rfl
  · rw [pstepAcc_of_product hp ht, pstepAcc_of_product (s := { s with bus := bus }) hp ht]
    rfl

/-- No command reads or writes the list of pending accesses, so it may be placed before or after the command (log 1). -/
theorem exec_commutes_with_bus (i : Instr) (s : State) (bus : List Access) :
    exec i { s with bus := bus } = onNext (fun t => { t with bus := bus }) (exec i s) := by
  cases i with
  | cfgset bank rndv satv =>
    by_cases hv : cfgsetValid s bank rndv satv = true
    · rw [exec_cfgset_of_valid hv, exec_cfgset_of_valid (s := { s with bus := bus }) hv]
      rfl
    · rw [exec_cfgset_of_not_valid hv, exec_cfgset_of_not_valid (s := { s with bus := bus }) hv]
      rfl
  | pstep =>
    simp only [exec, execPstep, pstepAcc_commutes_with_bus]
    rfl
  | _ => rfl

end Fetch

/-- Settles O7: a step is refused exactly on an access that is no transaction, which are those R36 does not admit. -/
theorem stepStopsExactlyOnRefusedAccess : Obligations.StepStopsExactlyOnRefusedAccess := by
  refine ⟨fun s r => ?_, fun _ f => nomatch f⟩
  simp only [step_eq_refused_iff, classify_eq_none_iff]

/-- Settles O15: the step answers `readReg`, whose value at each index is the register of R31. -/
theorem regReadReturnsTheContentAndChangesNothing : Obligations.RegReadReturnsTheContentAndChangesNothing := by
  intro s i rest hi hb
  refine ⟨s.readReg i, step_of_regRead hb (classify_regReadAccess s hi), ?_⟩
  refine ⟨?_, ?_, ?_, ?_, ?_, ?_, ?_, ?_, ?_, fun h => s.readReg_of_reserved (.inr h)⟩
  all_goals
    rintro rfl
    rfl

/-- Settles O16: the step is `writeReg` of the little-endian word, split by the index. -/
theorem regWriteActsByIndex : Obligations.RegWriteActsByIndex := by
  intro s i b0 b1 b2 b3 rest hi hcmd hb
  rw [step_of_regWrite hb (classify_write_lanes s hi b0 b1 b2 b3) hcmd]
  split_ifs with h0 h1 h4
  · subst h0
    rfl
  · subst h1
    rfl
  · subst h4
    have hstatus : s.writeReg 4 (b3 ++ b2 ++ b1 ++ b0) = { s with ill := s.ill && !b0.getLsbD 0 } := by
      rw [← getLsbD_zero_of_lanes b0 b1 b2 b3]
      exact s.writeStatus_eq _
    rw [hstatus]
  · rw [s.writeReg_of_ignored _ h0 h1 h4]

/-- Settles O17: two steps by `step_of_regRead` and `step_of_regWrite`, at the indices R37 lists. -/
theorem reservedAndReadOnlyRegisters : Obligations.ReservedAndReadOnlyRegisters := by
  constructor
  · intro s i rest hi hb
    rw [step_of_regRead hb (classify_regReadAccess s (by omega)), s.readReg_of_reserved (by omega)]
    rfl
  · intro s i v rest hi hb
    rw [step_of_regWrite hb (classify_regWriteAccess s (by omega) v) (by unfold cmdIndex; omega),
      s.writeReg_of_ignored v (by omega) (by omega) (by omega)]

/-- Settles O19: the command's step leaves the read of `RES` oldest, on a unit at the same `BASE`. -/
theorem readAfterCommandReturnsItsResult : Obligations.ReadAfterCommandReturnsItsResult := by
  intro s w i rest hw hb
  obtain ⟨t, ht⟩ := exec_completes i s
  obtain ⟨-, -, hbase, -⟩ := exec_keeps_operands_and_bus ht
  have hfirst : step s = .next { t with bus := s.regReadAccess 3 :: rest, reply := .written } := by
    rw [step_of_command hb hw, ht]
    rfl
  have hsecond : step { t with bus := s.regReadAccess 3 :: rest, reply := .written } =
      .next { t with bus := rest, reply := .data (wordLanes t.res) } := by
    refine step_of_regRead (i := 3) rfl ?_
    rw [hbase]
    exact classify_regReadAccess s (by decide)
  refine ⟨t, ht, ?_⟩
  calc Host.Core.run core 2 s
      = Host.Core.run core 1 { t with bus := s.regReadAccess 3 :: rest, reply := .written } :=
        run_succ_of_step (M := core) 1 hfirst
    _ = Host.Core.run core 0 { t with bus := rest, reply := .data (wordLanes t.res) } :=
        run_succ_of_step (M := core) 0 hsecond
    _ = .next { t with bus := rest, reply := .data (wordLanes t.res) } := rfl

/-- Settles O5: `CMD` runs `exec` of the decoded command, which neither reads nor writes the bus list. -/
theorem stepRunsTheDecodedCommand : Obligations.StepRunsTheDecodedCommand := by
  refine ⟨fun s w i rest hb hw => step_of_command hb hw, fun s w i hw => ?_⟩
  have hword : BitVec.ofNat 32 (w.toNat % 2 ^ 32) = w := by
    rw [Nat.mod_eq_of_lt w.isLt, BitVec.ofNat_toNat, BitVec.setWidth_eq]
  have hb : (s.withFetchWord 32 w.toNat).bus = (s.withFetchWord 32 w.toNat).regWriteAccess cmdIndex w :: s.bus := by
    rw [State.withFetchWord_bus, hword]
    rfl
  obtain ⟨t, ht⟩ := exec_completes i s
  obtain ⟨-, -, -, hbus, -⟩ := exec_keeps_operands_and_bus ht
  have hfetch : exec i (s.withFetchWord 32 w.toNat) =
      onNext (fun t => { t with bus := (s.withFetchWord 32 w.toNat).bus }) (exec i s) :=
    exec_commutes_with_bus i s _
  rw [step_of_command hb hw, hfetch, ht, ← hbus]
  rfl

end Sys2Proof.Machine
end

section
/-! PROOFS. The encoding family (`30_encoding.md`): decoder and encoder are inverse to each other, and the words the decoder
rejects are the three clauses of R50. -/

namespace Sys2Proof.Machine

section Fields
variable {w : Word}

theorem fieldOpcode_eq (w : Word) : fieldOpcode w = w.toNat % 256 := by simp [fieldOpcode]

theorem fieldBank_eq (w : Word) : fieldBank w = w.toNat / 256 % 256 := by
  simp [fieldBank, Nat.shiftRight_eq_div_pow]

theorem fieldRndv_eq (w : Word) : fieldRndv w = w.toNat / 65536 % 256 := by
  simp [fieldRndv, Nat.shiftRight_eq_div_pow]

theorem fieldSatv_eq (w : Word) : fieldSatv w = w.toNat / 16777216 % 256 := by
  simp [fieldSatv, Nat.shiftRight_eq_div_pow]

/-- Bits [31:16] are `RNDV` and `SATV` (R49). -/
theorem extractLsb'_rndv_satv_eq_zero_iff : w.extractLsb' 16 16 = 0 ↔ fieldRndv w = 0 ∧ fieldSatv w = 0 := by
  have hw := w.isLt
  have hzero : (0 : BitVec 16).toNat = 0 := rfl
  rw [← BitVec.toNat_inj, BitVec.extractLsb'_toNat, Nat.shiftRight_eq_div_pow, hzero, fieldRndv_eq, fieldSatv_eq]
  omega

/-- Bits [31:8] are `BANK`, `RNDV` and `SATV` (R49). -/
theorem extractLsb'_allFields_eq_zero_iff :
    w.extractLsb' 8 24 = 0 ↔ fieldBank w = 0 ∧ fieldRndv w = 0 ∧ fieldSatv w = 0 := by
  have hw := w.isLt
  have hzero : (0 : BitVec 24).toNat = 0 := rfl
  rw [← BitVec.toNat_inj, BitVec.extractLsb'_toNat, Nat.shiftRight_eq_div_pow, hzero, fieldBank_eq, fieldRndv_eq,
    fieldSatv_eq]
  omega

/-- The three clauses of R50 on the fields of the word. -/
theorem illegalWord_iff_fields :
    illegalWord w ↔ ¬ definedOpcode (fieldOpcode w) ∨
      (fieldOpcode w = 2 ∧ ¬ (fieldRndv w = 0 ∧ fieldSatv w = 0)) ∨
      (fieldOpcode w ≠ 1 ∧ fieldOpcode w ≠ 2 ∧ ¬ (fieldBank w = 0 ∧ fieldRndv w = 0 ∧ fieldSatv w = 0)) := by
  have hw := w.isLt
  have hhigh : w.toNat / 65536 = 0 ↔ fieldRndv w = 0 ∧ fieldSatv w = 0 := by
    rw [fieldRndv_eq, fieldSatv_eq]
    omega
  have hall : w.toNat / 256 = 0 ↔ fieldBank w = 0 ∧ fieldRndv w = 0 ∧ fieldSatv w = 0 := by
    rw [fieldBank_eq, fieldRndv_eq, fieldSatv_eq]
    omega
  rw [illegalWord, ← fieldOpcode_eq, ne_eq, ne_eq (w.toNat / 256), hhigh, hall]

end Fields

section OpcodeTable
variable {op : Nat} {i : Instr}

/-- Every row without fields is the row of its command's own `OPCODE`, in the set of R54 and neither CFGSET's nor CFGSEL's (R47). -/
theorem plainCommands_rows : ∀ row ∈ plainCommands,
    opcode row.2 = row.1 ∧ fieldsOf row.2 = (0, 0, 0) ∧ definedOpcode row.1 ∧ row.1 ≠ 1 ∧ row.1 ≠ 2 := by
  decide

theorem opcode_of_lookup (h : plainCommands.lookup op = some i) :
    opcode i = op ∧ fieldsOf i = (0, 0, 0) ∧ definedOpcode op ∧ op ≠ 1 ∧ op ≠ 2 := by
  obtain ⟨before, after, hrow, -⟩ := List.lookup_eq_some_iff.mp h
  exact plainCommands_rows (op, i) (by simp [hrow])

/-- Every command but CFGSET and CFGSEL has its row (R47). -/
theorem lookup_opcode (h1 : opcode i ≠ 1) (h2 : opcode i ≠ 2) : plainCommands.lookup (opcode i) = some i := by
  cases i with
  | cfgset => exact absurd rfl h1
  | cfgsel => exact absurd rfl h2
  | _ => rfl

theorem eq_cfgset_of_opcode (h : opcode i = 1) : ∃ k r v, i = .cfgset k r v := by
  cases i with
  | cfgset k r v => exact ⟨k, r, v, rfl⟩
  | _ => cases h

theorem eq_cfgsel_of_opcode (h : opcode i = 2) : ∃ k, i = .cfgsel k := by
  cases i with
  | cfgsel k => exact ⟨k, rfl⟩
  | _ => cases h

/-- The rows without fields are those of the set of R54 other than CFGSET and CFGSEL. -/
theorem lookup_eq_none_iff : plainCommands.lookup op = none ↔ op = 1 ∨ op = 2 ∨ ¬ definedOpcode op := by
  rw [List.lookup_eq_none_iff]
  simp only [plainCommands, List.forall_mem_cons, List.not_mem_nil, false_imp_iff, implies_true, and_true,
    bne_iff_ne, definedOpcode]
  constructor
  · intro h
    omega
  · intro h
    omega

end OpcodeTable

section Decoder
variable {w : Word} {i : Instr}

theorem decodeWord_of_cfgset (h : fieldOpcode w = 1) :
    decodeWord w = .ok (.cfgset (fieldBank w) (fieldRndv w) (fieldSatv w)) := by
  simp [decodeWord, h]

theorem decodeWord_of_cfgsel (h : fieldOpcode w = 2) :
    decodeWord w = if fieldRndv w = 0 ∧ fieldSatv w = 0 then .ok (.cfgsel (fieldBank w))
      else .error (.unusedFieldNonzero 2) := by
  simp only [decodeWord, h, ne_eq, extractLsb'_rndv_satv_eq_zero_iff, ite_not]
  rfl

theorem decodeWord_of_lookup (h : plainCommands.lookup (fieldOpcode w) = some i) :
    decodeWord w = if fieldBank w = 0 ∧ fieldRndv w = 0 ∧ fieldSatv w = 0 then .ok i
      else .error (.unusedFieldNonzero (fieldOpcode w)) := by
  obtain ⟨-, -, -, h1, h2⟩ := opcode_of_lookup h
  simp only [decodeWord, h1, h2, h, if_false, ne_eq, extractLsb'_allFields_eq_zero_iff, ite_not]

theorem decodeWord_of_undefined (h : ¬ definedOpcode (fieldOpcode w)) :
    decodeWord w = .error (.undefinedOpcode (fieldOpcode w)) := by
  have hnone := lookup_eq_none_iff.mpr (.inr (.inr h))
  simp only [decodeWord, hnone, show fieldOpcode w ≠ 1 by omega, show fieldOpcode w ≠ 2 by omega, if_false]

/-- The four ways a word's `OPCODE` can go (R47, R50). -/
theorem fieldOpcode_cases (w : Word) :
    fieldOpcode w = 1 ∨ fieldOpcode w = 2 ∨ (∃ i, plainCommands.lookup (fieldOpcode w) = some i) ∨
      ¬ definedOpcode (fieldOpcode w) := by
  cases hl : plainCommands.lookup (fieldOpcode w) with
  | some i => exact .inr (.inr (.inl ⟨i, rfl⟩))
  | none =>
    obtain h | h | h := lookup_eq_none_iff.mp hl
    · exact .inl h
    · exact .inr (.inl h)
    · exact .inr (.inr (.inr h))

/-- What a word decodes to is the command with the word's `OPCODE` and exactly the word's fields (R46, R47, R54). -/
theorem decodeWord_eq_ok_iff :
    decodeWord w = .ok i ↔
      opcode i = fieldOpcode w ∧ fieldsOf i = (fieldBank w, fieldRndv w, fieldSatv w) := by
  constructor
  · intro h
    obtain hop | hop | ⟨j, hop⟩ | hop := fieldOpcode_cases w
    · rw [decodeWord_of_cfgset hop] at h
      cases h
      exact ⟨hop.symm, rfl⟩
    · rw [decodeWord_of_cfgsel hop] at h
      split_ifs at h with hz
      cases h
      exact ⟨hop.symm, by simp [fieldsOf, hz]⟩
    · rw [decodeWord_of_lookup hop] at h
      split_ifs at h with hz
      cases h
      obtain ⟨hopcode, hfields, -⟩ := opcode_of_lookup hop
      exact ⟨hopcode, by simp [hfields, hz]⟩
    · rw [decodeWord_of_undefined hop] at h
      cases h
  · rintro ⟨hopcode, hfields⟩
    by_cases h1 : opcode i = 1
    · obtain ⟨k, r, v, rfl⟩ := eq_cfgset_of_opcode h1
      rw [decodeWord_of_cfgset (hopcode.symm.trans h1)]
      cases hfields
      rfl
    by_cases h2 : opcode i = 2
    · obtain ⟨k, rfl⟩ := eq_cfgsel_of_opcode h2
      obtain ⟨rfl, hr, hv⟩ : k = fieldBank w ∧ 0 = fieldRndv w ∧ 0 = fieldSatv w := by
        simpa [fieldsOf] using hfields
      rw [decodeWord_of_cfgsel (hopcode.symm.trans h2), if_pos ⟨hr.symm, hv.symm⟩]
    · have hl := lookup_opcode h1 h2
      obtain ⟨-, hzero, -⟩ := opcode_of_lookup hl
      rw [hopcode] at hl
      rw [hzero] at hfields
      rw [decodeWord_of_lookup hl, if_pos (by simpa [eq_comm] using hfields)]

/-- The decoder answers an error exactly for the words of R50. -/
theorem decodeWord_eq_error_iff : (∃ e, decodeWord w = .error e) ↔ illegalWord w := by
  rw [illegalWord_iff_fields]
  obtain hop | hop | ⟨j, hop⟩ | hop := fieldOpcode_cases w
  · simp [decodeWord_of_cfgset hop, hop]
  · rw [decodeWord_of_cfgsel hop]
    split_ifs with hz <;> simp [hop, hz]
  · obtain ⟨-, -, hdef, h1, h2⟩ := opcode_of_lookup hop
    rw [decodeWord_of_lookup hop]
    split_ifs with hz <;> simp [-not_and, hdef, h1, h2, hz]
  · simp only [decodeWord_of_undefined hop, hop, not_false_eq_true, true_or, iff_true]
    exact ⟨_, rfl⟩

end Decoder

section Encoder
variable {w : Word} {i : Instr}

theorem opcode_lt (i : Instr) : opcode i < 256 := by
  cases i with
  | cfgset | cfgsel => simp [opcode]
  | _ => decide

/-- A command is well formed when its fields fit their eight bits (R52). -/
theorem wellFormed_iff :
    i.wellFormed = true ↔ (fieldsOf i).1 < 256 ∧ (fieldsOf i).2.1 < 256 ∧ (fieldsOf i).2.2 < 256 := by
  cases i with
  | cfgset | cfgsel => simp [Instr.wellFormed, fieldsOf, and_assoc]
  | _ => simp [Instr.wellFormed, fieldsOf]

theorem wellFormed_of_fields (h : fieldsOf i = (fieldBank w, fieldRndv w, fieldSatv w)) : i.wellFormed = true := by
  rw [wellFormed_iff, h]
  exact ⟨BitVec.isLt _, BitVec.isLt _, BitVec.isLt _⟩

/-- The word of a well-formed command, as a sum that does not wrap (R52). -/
theorem toNat_encode (h : i.wellFormed = true) :
    (encode i).toNat =
      opcode i + (fieldsOf i).1 * 256 + (fieldsOf i).2.1 * 65536 + (fieldsOf i).2.2 * 16777216 := by
  obtain ⟨hbank, hrndv, hsatv⟩ := wellFormed_iff.mp h
  have hop := opcode_lt i
  unfold encode
  generalize fieldsOf i = fields at *
  obtain ⟨bank, rndv, satv⟩ := fields
  simp only [BitVec.toNat_ofNat] at *
  omega

/-- A word is the word of a well-formed command exactly when it has that command's `OPCODE` and fields (R46, R52). -/
theorem encode_eq_iff (h : i.wellFormed = true) :
    encode i = w ↔ opcode i = fieldOpcode w ∧ fieldsOf i = (fieldBank w, fieldRndv w, fieldSatv w) := by
  obtain ⟨hbank, hrndv, hsatv⟩ := wellFormed_iff.mp h
  have hop := opcode_lt i
  have hw := w.isLt
  rw [← BitVec.toNat_inj, toNat_encode h, fieldOpcode_eq, fieldBank_eq, fieldRndv_eq, fieldSatv_eq]
  simp only [Prod.ext_iff]
  omega

end Encoder

/-- Settles O1: the word of a well-formed command has its `OPCODE` and fields, and the decoder reads those. -/
theorem decodeOfEncodeIsTheCommand : Obligations.DecodeOfEncodeIsTheCommand :=
  fun _ h => decodeWord_eq_ok_iff.mpr ((encode_eq_iff h).mp rfl)

/-- Settles O2: the command read from a word has that word's fields, so it is well formed and encodes to the word. -/
theorem encodeOfDecodeIsTheWord : Obligations.EncodeOfDecodeIsTheWord := by
  intro w i h
  have hparts := decodeWord_eq_ok_iff.mp h
  have hwf := wellFormed_of_fields hparts.2
  exact ⟨hwf, (encode_eq_iff hwf).mpr hparts⟩

/-- Settles O3: by the four ways the `OPCODE` of a word can go. -/
theorem decoderRejectsExactlyIllegalWords : Obligations.DecoderRejectsExactlyIllegalWords :=
  fun _ => decodeWord_eq_error_iff

/-- Settles O4: each literal is the word of its command, and a command's word decodes to it. -/
theorem wordsOfEveryFamilyDecode : Obligations.WordsOfEveryFamilyDecode :=
  ⟨decodeOfEncodeIsTheCommand .nop rfl, decodeOfEncodeIsTheCommand (.cfgset 2 0 1) rfl,
    decodeOfEncodeIsTheCommand (.cfgsel 255) rfl, decodeOfEncodeIsTheCommand .fix2int rfl,
    decodeOfEncodeIsTheCommand .div rfl, decodeOfEncodeIsTheCommand .ln rfl,
    decodeOfEncodeIsTheCommand .pstep rfl, decodeOfEncodeIsTheCommand .atan2 rfl,
    decodeOfEncodeIsTheCommand .tanh rfl⟩

/-- An illegal word written to `CMD` is reported in `ILL`, and the answer is "written" (R50). -/
theorem step_of_illegalWord {s : State} {w : Word} {rest : List Access}
    (hb : s.bus = s.regWriteAccess cmdIndex w :: rest) (hw : illegalWord w) :
    step s = .next { s with ill := true, bus := rest, reply := .written } := by
  obtain ⟨e, he⟩ := decodeWord_eq_error_iff.mpr hw
  have hp : perform s (.regWrite cmdIndex w) = .next s.reportIllegal := by simp [perform, runCommand, he]
  rw [step_of_perform hb (classify_regWriteAccess s (by decide) w) hp, State.retire_eq (s.reportIllegal_bus.trans hb)]
  rfl

/-- Settles O6: the decoder rejects the word, and the report of an illegal command sets `ILL` alone. -/
theorem illegalCommandSetsOnlyIll : Obligations.IllegalCommandSetsOnlyIll :=
  fun _ _ _ hb hw => step_of_illegalWord hb hw

end Sys2Proof.Machine
end

section
/-! PROOFS. The POLY line of the host script (R53): the accesses it stands for run the Horner recurrence of R109. -/

namespace Sys2Proof.Machine

section ProductAndSum

/-- MUL gives the sentinel or the rounded product of a 48-bit range test, so its value is the raw integer of a word (R74). -/
theorem fxMul_bounds (st : Settings) (a b : Int) : -2147483648 ≤ fxMul st a b ∧ fxMul st a b ≤ 2147483647 := by
  have hround : a * b / 65536 ≤ mulRound st (a * b) := by
    unfold mulRound
    split_ifs <;> omega
  unfold fxMul
  simp only [sentinel]
  split_ifs <;> omega

theorem wrap32_fxMul (st : Settings) (a b : Int) : wrap32 (fxMul st a b) = fxMul st a b :=
  wrap32_of_range (fxMul_bounds st a b).1 (fxMul_bounds st a b).2

/-- MUL leaves the pattern `SENTINEL` exactly where its value is the sentinel (R3, R74). -/
theorem word_fxMul_eq_sentinelWord_iff {st : Settings} {a b : Int} :
    word (fxMul st a b) = sentinelWord ↔ fxMul st a b = sentinel := by
  rw [← raw_eq_iff, raw_word, wrap32_fxMul]
  exact Iff.rfl

theorem result_mul (s : State) (a b : Word) : result .mul s a b = word (fxMul s.active (raw a) (raw b)) := rfl

theorem result_add (s : State) (a b : Word) : result .add s a b = word (fxAdd (raw a) (raw b)) := rfl

end ProductAndSum

section Horner
variable {s : State} {x c : Word} {h : Word × Bool}

theorem hornerStep_of_stuck (hp : h.2 = true) : hornerStep s x h c = h := by
  simp [hornerStep, hp]

theorem hornerStep_of_sentinel_product (hp : ¬ h.2 = true)
    (ht : fxMul s.active (raw h.1) (raw x) = sentinel) : hornerStep s x h c = (sentinelWord, true) := by
  rw [hornerStep, if_neg hp, result_mul, if_pos (word_fxMul_eq_sentinelWord_iff.mpr ht)]

theorem hornerStep_of_product (hp : ¬ h.2 = true) (ht : ¬ fxMul s.active (raw h.1) (raw x) = sentinel) :
    hornerStep s x h c = (word (fxAdd (fxMul s.active (raw h.1) (raw x)) (raw c)), false) := by
  rw [hornerStep, if_neg hp, result_mul, if_neg (mt word_fxMul_eq_sentinelWord_iff.mp ht), result_add, raw_word,
    wrap32_fxMul]

/-- The accumulator part of PSTEP is one step of R109's recurrence on `ACC` and `PSTK`, at the point in `OPA`, with the
coefficient in `OPB` (R108). -/
theorem pstepAcc_eq_hornerStep (s : State) :
    pstepAcc s = { s with acc := (hornerStep s s.opa (s.acc, s.pstk) s.opb).1
                          pstk := (hornerStep s s.opa (s.acc, s.pstk) s.opb).2 } := by
  by_cases hp : s.pstk = true
  · rw [pstepAcc_of_stuck hp, hornerStep_of_stuck (h := (s.acc, s.pstk)) hp]
  by_cases ht : fxMul s.active (raw s.acc) s.operandA = sentinel
  · have hword : word sentinel = sentinelWord := by decide
    rw [pstepAcc_of_sentinel_product hp ht, hornerStep_of_sentinel_product (h := (s.acc, s.pstk)) hp ht,
      State.writeAcc, hword, State.setPstk]
  · rw [pstepAcc_of_product hp ht, hornerStep_of_product (h := (s.acc, s.pstk)) hp ht, State.writeAcc,
      ← Bool.eq_false_of_not_eq_true hp]
    rfl

/-- PSTEP also copies `ACC` to `RES` (R108). -/
theorem exec_pstep_eq (s : State) :
    exec .pstep s = .next { pstepAcc s with res := (pstepAcc s).acc } := by
  simp [exec, execPstep, State.writeRes]

/-- PINIT loads `ACC` and `RES` from `OPA` and clears `PSTK` (R107). -/
theorem exec_pinit_eq (s : State) : exec .pinit s = .next { s with acc := s.opa, pstk := false, res := s.opa } := by
  simp [exec, execPinit, State.writeRes, State.writeAcc, State.setPstk, State.operandA]

end Horner

section PolyRun
variable {s : State} {x b c c0 : Word} {h : Word × Bool} {rest : List Access} {j : Instr}

/-- `run_succ_of_step` on the unit's own states and step. -/
theorem run_core_succ {t : State} (k : Nat) (hs : step s = .next t) :
    Host.Core.run core (k + 1) s = Host.Core.run core k t :=
  run_succ_of_step (M := core) k hs

/-- A well-formed command's access is performed as the command it stands for (R38, R52). -/
theorem step_of_commandAccess (hb : s.bus = s.commandAccess j :: rest) (hj : j.wellFormed = true) :
    step s = onNext (fun t => { t with bus := rest, reply := .written }) (exec j s) :=
  step_of_command hb (decodeOfEncodeIsTheCommand j hj)

/-- A register write's access other than a command is performed as that write (R35). -/
theorem step_of_regWriteAccess {i : Nat} {v : Word} (hb : s.bus = s.regWriteAccess i v :: rest) (hi : i < 16)
    (hcmd : i ≠ cmdIndex) : step s = .next { s.writeReg i v with bus := rest, reply := .written } :=
  step_of_regWrite hb (classify_regWriteAccess s hi v) hcmd

/-- The unit between two coefficients of a POLY line that began in `s`: the point in `OPA`, the last coefficient in `OPB`, the
recurrence's value in `ACC` and `RES`, its flag in `PSTK`. -/
def State.inPoly (s : State) (x b : Word) (h : Word × Bool) (bus : List Access) : State :=
  { s with opa := x, opb := b, acc := h.1, res := h.1, pstk := h.2, bus := bus, reply := .written }

/-- `WR OPB` and `PSTEP` take the recurrence one coefficient further (R53, R109). -/
theorem run_coefficient (k : Nat) :
    Host.Core.run core (k + 2) (s.inPoly x b h (s.regWriteAccess 1 c :: s.commandAccess .pstep :: rest)) =
      Host.Core.run core k (s.inPoly x c (hornerStep s x h c) rest) := by
  have hwrite : step (s.inPoly x b h (s.regWriteAccess 1 c :: s.commandAccess .pstep :: rest)) =
      .next (s.inPoly x c h (s.commandAccess .pstep :: rest)) :=
    step_of_regWriteAccess (i := 1) rfl (by decide) (by decide)
  have hpstep : step (s.inPoly x c h (s.commandAccess .pstep :: rest)) =
      .next (s.inPoly x c (hornerStep s x h c) rest) := by
    rw [step_of_commandAccess rfl rfl, exec_pstep_eq, pstepAcc_eq_hornerStep]
    rfl
  rw [run_core_succ (k + 1) hwrite, run_core_succ k hpstep]

/-- The PSTEP part of the POLY line folds the recurrence over its coefficients (R53, R109). -/
theorem run_pstepAccesses (s : State) (x b : Word) (h : Word × Bool) (cs : List Word) (rest : List Access) :
    Host.Core.run core (2 * cs.length) (s.inPoly x b h (s.pstepAccesses cs ++ rest)) =
      .next (s.inPoly x (cs.getLastD b) (cs.foldl (hornerStep s x) h) rest) := by
  induction cs generalizing b h with
  | nil => rfl
  | cons c cs ih =>
    rw [List.length_cons, Nat.mul_succ, State.pstepAccesses, List.cons_append, List.cons_append, run_coefficient, ih,
      List.getLastD_cons, List.foldl_cons]

/-- `WR OPA c0`, `PINIT` and `WR OPA x` start the recurrence with the first coefficient (R53, R107). -/
theorem run_polyStart (k : Nat)
    (hb : s.bus = s.regWriteAccess 0 c0 :: s.commandAccess .pinit :: s.regWriteAccess 0 x :: rest) :
    Host.Core.run core (k + 3) s = Host.Core.run core k (s.inPoly x s.opb (c0, false) rest) := by
  have hload : step s = .next { s with
      opa := c0, bus := s.commandAccess .pinit :: s.regWriteAccess 0 x :: rest, reply := .written } :=
    step_of_regWriteAccess (i := 0) hb (by decide) (by decide)
  have hpinit : step { s with
      opa := c0, bus := s.commandAccess .pinit :: s.regWriteAccess 0 x :: rest, reply := .written } =
      .next (s.inPoly c0 s.opb (c0, false) (s.regWriteAccess 0 x :: rest)) := by
    rw [step_of_commandAccess rfl rfl, exec_pinit_eq]
    rfl
  have hpoint : step (s.inPoly c0 s.opb (c0, false) (s.regWriteAccess 0 x :: rest)) =
      .next (s.inPoly x s.opb (c0, false) rest) :=
    step_of_regWriteAccess (i := 0) rfl (by decide) (by decide)
  rw [run_core_succ (k + 2) hload, run_core_succ (k + 1) hpinit, run_core_succ k hpoint]

end PolyRun

/-- Settles O49: the start of the line, then the fold over its coefficients. -/
theorem polyScriptEvaluatesHorner : Obligations.PolyScriptEvaluatesHorner := by
  intro s x c0 cs rest hb
  rw [Nat.add_comm]
  exact (run_polyStart (2 * cs.length) hb).trans (run_pstepAccesses s x s.opb (c0, false) cs rest)

end Sys2Proof.Machine
end

section
/-! PROOFS. The settings family (`40_config.md`): what NOP, CFGSET and CFGSEL do (R60 to R62), and which settings each function
reads (R63). -/

namespace Sys2Proof.Machine

/-- Settles O22: both are equations of `exec`. -/
theorem nopAndCfgselFollowTheirRules : Obligations.NopAndCfgselFollowTheirRules :=
  fun _ _ => ⟨rfl, rfl⟩

/-- Settles O21: by the four validations together, `cfgsetValid`. -/
theorem cfgsetWritesTheBankOrReports : Obligations.CfgsetWritesTheBankOrReports := by
  intro s bank rndv satv
  have hvalid : cfgsetValid s bank rndv satv = true ↔
      bank < s.banks.length ∧ s.opa.toInt < s.opb.toInt ∧ rndv ≤ 1 ∧ satv ≤ 1 := cfgsetValid_iff
  by_cases hv : cfgsetValid s bank rndv satv = true
  · rw [exec_cfgset_of_valid hv, if_pos (hvalid.mp hv), beq_eq_decide, beq_eq_decide]
    rfl
  · rw [exec_cfgset_of_not_valid hv, if_neg (mt hvalid.mpr hv)]
    rfl

section FunctionsOfTheRoundingFlag
/-! Each function that R63 lets read `RND` alone is the same function under two records that agree on `RND`. The equations are
between functions, so that one rewrites every use inside the next. -/
variable {st st' : Settings} (h : st.rnd = st'.rnd)
include h

theorem fxFix2int_congr : fxFix2int st = fxFix2int st' := by
  funext a
  rw [fxFix2int, fxFix2int, h]

theorem mulRound_congr : mulRound st = mulRound st' := by
  funext p
  rw [mulRound, mulRound, h]

theorem fxMul_congr : fxMul st = fxMul st' := by
  funext a b
  rw [fxMul, fxMul, mulRound_congr h]

theorem divMagnitude_congr : divMagnitude st = divMagnitude st' := by
  funext a b
  rw [divMagnitude, divMagnitude, h]

theorem fxSqrt_congr : fxSqrt st = fxSqrt st' := by
  funext a
  rw [fxSqrt, fxSqrt, sqrtPositive, sqrtPositive, h]

theorem fxSin_congr : fxSin st = fxSin st' := by
  funext x
  rw [fxSin, fxSin, sinSeries, sinSeries, fxMul_congr h]

theorem fxCos_congr : fxCos st = fxCos st' := by
  funext x
  rw [fxCos, fxCos, fxSin_congr h]

theorem log2Rs_congr : log2Rs st = log2Rs st' := by
  funext v
  rw [log2Rs, log2Rs, h]

theorem log2Halve_congr (k : Nat) : log2Halve st k = log2Halve st' k := by
  induction k with
  | zero => rfl
  | succ k ih =>
    funext v n
    rw [log2Halve, log2Halve, log2Rs_congr h, ih]

theorem log2Stages_congr (k : Nat) : log2Stages st k = log2Stages st' k := by
  induction k with
  | zero => rfl
  | succ k ih =>
    funext v res
    rw [log2Stages, log2Stages, fxMul_congr h, log2Rs_congr h, ih]

theorem log2Core_congr : log2Core st = log2Core st' := by
  funext v
  rw [log2Core, log2Core, log2Halve_congr h, log2Stages_congr h, fxMul_congr h, h]

/-- LOG2 also reads `SAT` and `MIN`, for its overflow value alone (R63, R70). -/
theorem fxLog2_congr (hsat : st.sat = st'.sat) (hmin : st.min = st'.min) : fxLog2 st = fxLog2 st' := by
  have hover : log2Overflow st = log2Overflow st' := by rw [log2Overflow, log2Overflow, hsat, hmin]
  funext a
  rw [fxLog2, fxLog2, hover, divMagnitude_congr h, log2Core_congr h]

end FunctionsOfTheRoundingFlag

section Results
variable {i : Instr} {s t : State} {a b : Word}

/-- What a command leaves in `RES`, from the state it answers. -/
theorem result_of_exec {u : State} (h : exec i { s with opa := a, opb := b } = .next u) :
    result i s a b = u.res := by
  rw [result, h]

/-- An operand command sees of the state only its function under the active settings (R15, R48). -/
theorem result_congr_of_commandA {f : Settings → Int → Int} (hexec : exec i = commandA f)
    (hf : f s.active = f t.active) : result i s a b = result i t a b := by
  have hword (u : State) : result i u a b = word (f u.active (raw a)) := by
    rw [result, hexec]
    rfl
  rw [hword, hword, hf]

/-- The commands that read no setting and no state but the operands: conversions to fixed point, sums, remainder, rounding to
integers, angle wraps, and the start of a Horner run (R63). -/
theorem result_congr_of_settingless
    (hi : i ∈ [Instr.int2fix, .add, .sub, .mod, .abs, .floor, .ceil, .round, .wrappi, .wrap180, .pinit]) :
    result i s a b = result i t a b := by
  simp only [List.mem_cons, List.not_mem_nil, or_false] at hi
  obtain rfl | rfl | rfl | rfl | rfl | rfl | rfl | rfl | rfl | rfl | rfl := hi
  all_goals rfl

/-- The operand commands that read `RND` alone (R63). -/
theorem result_congr_of_rnd (hr : s.active.rnd = t.active.rnd)
    (hi : i ∈ [Instr.fix2int, .mul, .sqrt, .sin, .cos]) : result i s a b = result i t a b := by
  simp only [List.mem_cons, List.not_mem_nil, or_false] at hi
  obtain rfl | rfl | rfl | rfl | rfl := hi
  · exact result_congr_of_commandA rfl (fxFix2int_congr hr)
  · rw [result_mul, result_mul, fxMul_congr hr]
  · exact result_congr_of_commandA rfl (fxSqrt_congr hr)
  · exact result_congr_of_commandA rfl (fxSin_congr hr)
  · exact result_congr_of_commandA rfl (fxCos_congr hr)

/-- CFGSET reports its validations, which read the operands, the fields and `NBANKS` (R61). -/
theorem result_cfgset (k r v : Nat) (s : State) (a b : Word) :
    result (.cfgset k r v) s a b =
      if k < s.nbanks ∧ a.toInt < b.toInt ∧ r ≤ 1 ∧ v ≤ 1 then 1#32 else 0#32 := by
  have hexec := cfgsetWritesTheBankOrReports { s with opa := a, opb := b } k r v
  by_cases hv : k < s.nbanks ∧ a.toInt < b.toInt ∧ r ≤ 1 ∧ v ≤ 1
  · rw [result_of_exec (hexec.trans (if_pos hv)), if_pos hv]
  · rw [result_of_exec (hexec.trans (if_neg hv)), if_neg hv]

/-- NOP and CFGSEL leave the `RES` they find (R60, R62). -/
theorem result_eq_res (hi : i = .nop ∨ ∃ k, i = .cfgsel k) (s : State) (a b : Word) : result i s a b = s.res := by
  obtain ⟨u, hu⟩ := exec_completes i { s with opa := a, opb := b }
  exact (result_of_exec hu).trans (exec_keeps_res (s := { s with opa := a, opb := b }) hi hu)

/-- PSTEP's result is one step of the recurrence of R109 on `ACC` and `PSTK` (R108). -/
theorem result_pstep (s : State) (a b : Word) : result .pstep s a b = (hornerStep s a (s.acc, s.pstk) b).1 := by
  rw [result_of_exec (exec_pstep_eq _), pstepAcc_eq_hornerStep]
  rfl

/-- A step of the recurrence is a MUL and an ADD, so it reads `RND` alone (R63, R109). -/
theorem hornerStep_congr (hr : s.active.rnd = t.active.rnd) : hornerStep s = hornerStep t := by
  have hmul : result .mul s = result .mul t := by
    funext y z
    exact result_congr_of_rnd hr (by decide)
  have hadd : result .add s = result .add t := rfl
  funext x h c
  rw [hornerStep, hornerStep, hmul, hadd]

end Results

/-- Settles O20: class by class of R63's table. -/
theorem unreadSettingsCannotChangeResults : Obligations.UnreadSettingsCannotChangeResults := by
  intro s t a b
  refine ⟨fun i hi => result_congr_of_settingless hi, fun k r v hn => ?cfgset, fun i hi hres => ?noResult,
    fun hr => ⟨fun i hi => result_congr_of_rnd hr hi, fun hacc hpstk => ?pstep, fun hsat hmin => ?log2⟩⟩
  case cfgset => rw [result_cfgset, result_cfgset, hn]
  case noResult => rw [result_eq_res hi, result_eq_res hi, hres]
  case pstep => rw [result_pstep, result_pstep, hornerStep_congr hr, hacc, hpstk]
  case log2 => exact result_congr_of_commandA rfl (fxLog2_congr hr hsat hmin)

end Sys2Proof.Machine
end

section
/-! PROOFS. The conversion family (`41_conversion.md`): INT2FIX and FIX2INT on words (R65, R66), and their round trip (R67). -/

namespace Sys2Proof.Machine

section Int2fix

/-- Multiplying a raw integer by 65536 shifts its pattern left by 16 bits, modulo 2^32. -/
theorem word_raw_mul_65536 (w : Word) : word (raw w * 65536) = w <<< 16 := by
  have hpow : BitVec.ofInt 32 65536 = BitVec.twoPow 32 16 := by decide
  rw [word, BitVec.ofInt_mul, hpow, BitVec.shiftLeft_eq_mul_twoPow]
  exact congrArg (· * BitVec.twoPow 32 16) (word_raw w)

/-- A left shift by 16 bits keeps the low half and puts sixteen zero bits after it. -/
theorem shiftLeft_16_eq_append (w : Word) : w <<< 16 = w.extractLsb' 0 16 ++ 0#16 := by
  apply BitVec.eq_of_getLsbD_eq
  intro k hk
  simp only [BitVec.getLsbD_shiftLeft, BitVec.getLsbD_append, BitVec.getLsbD_extractLsb', BitVec.getLsbD_zero]
  by_cases hlow : k < 16
  · simp [hlow]
  · have hhigh : k - 16 < 16 := by omega
    simp [hlow, hk, hhigh]

/-- INT2FIX as a word: the low half of the operand, then sixteen zero bits (R65). -/
theorem word_fxInt2fix (w : Word) : word (fxInt2fix (raw w)) = w.extractLsb' 0 16 ++ 0#16 :=
  calc word (fxInt2fix (raw w))
    _ = word (raw w * 65536) := word_raw _
    _ = w <<< 16 := word_raw_mul_65536 w
    _ = w.extractLsb' 0 16 ++ 0#16 := shiftLeft_16_eq_append w

/-- INT2FIX is exact on the 16-bit integers (R65 (a)). -/
theorem fxInt2fix_of_range {i : Int} (h1 : -32768 ≤ i) (h2 : i ≤ 32767) : fxInt2fix i = i * 65536 :=
  wrap32_of_range (by omega) (by omega)

end Int2fix

section Fix2int
variable {st : Settings}

/-- Moving half a unit away from zero before `trunc_div` rounds the magnitude half up and keeps the sign (R66). -/
theorem truncDiv_add_half_away_eq (a : Int) :
    truncDiv (if 0 ≤ a then a + 32768 else a - 32768) 65536 =
      a.sign * ((a.natAbs + 32768) / 65536 : Nat) := by
  rw [truncDiv]
  by_cases ha : 0 ≤ a
  · rw [if_pos ha, Int.tdiv_eq_ediv_of_nonneg (by omega)]
    obtain rfl | hpos := ha.eq_or_lt
    · rfl
    · rw [Int.sign_eq_one_of_pos hpos]
      omega
  · have hneg : a - 32768 = -(-a + 32768) := by omega
    rw [if_neg ha, hneg, Int.neg_tdiv, Int.tdiv_eq_ediv_of_nonneg (by omega),
      Int.sign_eq_neg_one_of_neg (not_le.mp ha)]
    omega

theorem fxFix2int_of_rnd (h : st.rnd = true) (a : Int) :
    fxFix2int st a = a.sign * ((a.natAbs + 32768) / 65536 : Nat) := by
  rw [fxFix2int, if_pos h, truncDiv_add_half_away_eq]

theorem fxFix2int_of_not_rnd (h : ¬ st.rnd = true) (a : Int) : fxFix2int st a = a / 65536 := by
  rw [fxFix2int, if_neg h]

/-- The floor division by 65536 is the arithmetic shift of the pattern (R66 (b)). -/
theorem word_raw_div_65536 (w : Word) : word (raw w / 65536) = w.sshiftRight 16 := by
  rw [BitVec.sshiftRight_eq, Int.shiftRight_eq_div_pow]
  rfl

/-- With zero fraction bits both branches of FIX2INT divide exactly (R67). -/
theorem fxFix2int_mul_65536 (st : Settings) (i : Int) : fxFix2int st (i * 65536) = i := by
  by_cases hr : st.rnd = true
  · have hsign : (i * 65536).sign = i.sign := by
      rw [Int.sign_mul, Int.sign_eq_one_of_pos (show (0 : Int) < 65536 by decide), Int.mul_one]
    have hmag : ((i * 65536).natAbs + 32768) / 65536 = i.natAbs := by omega
    rw [fxFix2int_of_rnd hr, hsign, hmag, Int.sign_mul_natAbs]
  · rw [fxFix2int_of_not_rnd hr, Int.mul_ediv_cancel _ (by decide)]

end Fix2int

section Commands

theorem exec_int2fix_eq (s : State) : exec .int2fix s = .next (s.writeRes (fxInt2fix (raw s.opa))) := rfl

theorem exec_fix2int_eq (s : State) : exec .fix2int s = .next (s.writeRes (fxFix2int s.active (raw s.opa))) := rfl

theorem result_int2fix (s : State) (a b : Word) : result .int2fix s a b = word (fxInt2fix (raw a)) :=
  result_of_exec (exec_int2fix_eq _)

theorem result_fix2int (s : State) (a b : Word) : result .fix2int s a b = word (fxFix2int s.active (raw a)) :=
  result_of_exec (exec_fix2int_eq _)

end Commands

/-- Settles O25: each command is one write of `RES`, with the word its function gives. -/
theorem integerConversionsFollowTheirRules : Obligations.IntegerConversionsFollowTheirRules := by
  intro s
  constructor
  · rw [exec_int2fix_eq, State.writeRes, word_fxInt2fix]
  · by_cases hr : s.active.rnd = true
    · rw [exec_fix2int_eq, State.writeRes, fxFix2int_of_rnd hr, if_pos hr]
      rfl
    · rw [exec_fix2int_eq, State.writeRes, fxFix2int_of_not_rnd hr, word_raw_div_65536, if_neg hr]

/-- Settles O26: INT2FIX of a 16-bit integer is exact and fits a word, and FIX2INT divides it exactly. -/
theorem fix2intUndoesInt2fix : Obligations.Fix2intUndoesInt2fix := by
  intro s i b h1 h2
  have hi : raw (word i) = i := wrap32_of_range (by omega) (by omega)
  have hfixed : raw (word (i * 65536)) = i * 65536 := wrap32_of_range (by omega) (by omega)
  calc result .fix2int s (result .int2fix s (word i) b) b
    _ = word (fxFix2int s.active (raw (word (i * 65536)))) := by
      rw [result_fix2int, result_int2fix, hi, fxInt2fix_of_range h1 h2]
    _ = word i := by rw [hfixed, fxFix2int_mul_65536]

end Sys2Proof.Machine
end

section
/-! PROOFS. The arithmetic family (`42_arithmetic.md`): the closed form of each command on raw integers (R72 to R75, R77 to R81),
and the limb datapath of MUL (R82). -/

namespace Sys2Proof.Machine

section Words

theorem word_add (u v : Int) : word (u + v) = word u + word v := BitVec.ofInt_add u v

theorem word_neg (v : Int) : word (-v) = -word v := BitVec.ofInt_neg

theorem word_sub (u v : Int) : word (u - v) = word u - word v := by
  rw [sub_eq_add_neg, word_add, word_neg, ← sub_eq_add_neg]

theorem msb_eq_raw_neg (w : Word) : w.msb = decide (raw w < 0) := BitVec.msb_eq_toInt

/-- A word keeps only what its value is modulo 2^32. -/
theorem word_add_mul_4294967296 (v k : Int) : word (v + k * 4294967296) = word v := by
  have hperiod : BitVec.ofInt 32 4294967296 = 0#32 := by decide
  rw [word, BitVec.ofInt_add, BitVec.ofInt_mul, hperiod, BitVec.mul_zero, BitVec.add_zero]
  rfl

theorem raw_eq_zero_iff (w : Word) : raw w = 0 ↔ w = 0 := raw_eq_iff (b := 0)

theorem natAbs_raw_le (w : Word) : (raw w).natAbs ≤ 2147483648 := by
  have hw := raw_bounds w
  omega

end Words

section Commands

theorem exec_add_eq (s : State) : exec .add s = .next (s.writeRes (fxAdd (raw s.opa) (raw s.opb))) := rfl

theorem exec_sub_eq (s : State) : exec .sub s = .next (s.writeRes (fxSub (raw s.opa) (raw s.opb))) := rfl

theorem exec_mul_eq (s : State) : exec .mul s = .next (s.writeRes (fxMul s.active (raw s.opa) (raw s.opb))) := rfl

theorem exec_div_eq (s : State) : exec .div s = .next (s.writeRes (fxDiv s.active (raw s.opa) (raw s.opb))) := rfl

theorem exec_mod_eq (s : State) : exec .mod s = .next (s.writeRes (fxMod (raw s.opa) (raw s.opb))) := rfl

theorem exec_abs_eq (s : State) : exec .abs s = .next (s.writeRes (fxAbs (raw s.opa))) := rfl

theorem exec_floor_eq (s : State) : exec .floor s = .next (s.writeRes (fxFloor (raw s.opa))) := rfl

theorem exec_ceil_eq (s : State) : exec .ceil s = .next (s.writeRes (fxCeil (raw s.opa))) := rfl

theorem exec_round_eq (s : State) : exec .round s = .next (s.writeRes (fxRound (raw s.opa))) := rfl

theorem result_sub (s : State) (a b : Word) : result .sub s a b = word (fxSub (raw a) (raw b)) :=
  result_of_exec (exec_sub_eq _)

end Commands

section AddSub
variable {x y : Word}

theorem raw_add_of_range (h1 : -2147483648 ≤ raw x + raw y) (h2 : raw x + raw y ≤ 2147483647) :
    raw (x + y) = raw x + raw y :=
  calc raw (x + y)
    _ = raw (word (raw x + raw y)) := by rw [word_add, word_raw, word_raw]
    _ = raw x + raw y := wrap32_of_range h1 h2

theorem raw_sub_of_range (h1 : -2147483648 ≤ raw x - raw y) (h2 : raw x - raw y ≤ 2147483647) :
    raw (x - y) = raw x - raw y :=
  calc raw (x - y)
    _ = raw (word (raw x - raw y)) := by rw [word_sub, word_raw, word_raw]
    _ = raw x - raw y := wrap32_of_range h1 h2

/-- The sign test of R72 finds exactly the sums outside the range of a word. -/
theorem add_signs_iff_overflow (x y : Word) :
    (x.msb = y.msb ∧ (x + y).msb ≠ x.msb) ↔
      ¬ (-2147483648 ≤ raw x + raw y ∧ raw x + raw y ≤ 2147483647) := by
  have hsigns : (x.msb = y.msb ∧ (x + y).msb ≠ x.msb) ↔ x.saddOverflow y = true := by
    simp [BitVec.saddOverflow_eq]
  rw [hsigns, BitVec.saddOverflow, Bool.or_eq_true, decide_eq_true_eq, decide_eq_true_eq, raw, raw]
  omega

/-- The sign test of R73 finds exactly the differences outside the range of a word. -/
theorem sub_signs_iff_overflow (x y : Word) :
    (x.msb ≠ y.msb ∧ (x - y).msb ≠ x.msb) ↔
      ¬ (-2147483648 ≤ raw x - raw y ∧ raw x - raw y ≤ 2147483647) := by
  have hsigns : (x.msb ≠ y.msb ∧ (x - y).msb ≠ x.msb) ↔ x.ssubOverflow y = true := by
    rw [BitVec.ssubOverflow_eq]
    cases x.msb <;> cases y.msb <;> simp
  rw [hsigns, BitVec.ssubOverflow, Bool.or_eq_true, decide_eq_true_eq, decide_eq_true_eq, raw, raw]
  omega

/-- ADD in its closed form (R72). -/
theorem fxAdd_raw (x y : Word) :
    fxAdd (raw x) (raw y) =
      if -2147483648 ≤ raw x + raw y ∧ raw x + raw y ≤ 2147483647 then raw x + raw y else sentinel := by
  simp only [fxAdd, word_raw, add_signs_iff_overflow, ite_not]
  by_cases h : -2147483648 ≤ raw x + raw y ∧ raw x + raw y ≤ 2147483647
  · rw [if_pos h, if_pos h, raw_add_of_range h.1 h.2]
  · rw [if_neg h, if_neg h]

/-- SUB in its closed form (R73). -/
theorem fxSub_raw (x y : Word) :
    fxSub (raw x) (raw y) =
      if -2147483648 ≤ raw x - raw y ∧ raw x - raw y ≤ 2147483647 then raw x - raw y else sentinel := by
  simp only [fxSub, word_raw, sub_signs_iff_overflow, ite_not]
  by_cases h : -2147483648 ≤ raw x - raw y ∧ raw x - raw y ≤ 2147483647
  · rw [if_pos h, if_pos h, raw_sub_of_range h.1 h.2]
  · rw [if_neg h, if_neg h]

/-- What ADD leaves in `RES` (R72). -/
theorem word_fxAdd (x y : Word) :
    word (fxAdd (raw x) (raw y)) =
      if -2147483648 ≤ raw x + raw y ∧ raw x + raw y ≤ 2147483647 then x + y else 0x80000000#32 := by
  rw [fxAdd_raw, apply_ite word, word_add, word_raw, word_raw]
  rfl

/-- What SUB leaves in `RES` (R73). -/
theorem word_fxSub (x y : Word) :
    word (fxSub (raw x) (raw y)) =
      if -2147483648 ≤ raw x - raw y ∧ raw x - raw y ≤ 2147483647 then x - y else 0x80000000#32 := by
  rw [fxSub_raw, apply_ite word, word_sub, word_raw, word_raw]
  rfl

end AddSub

/-- Settles O27: the overflow test by signs is the range test on the exact sum or difference. -/
theorem addAndSubAreExactOrSentinel : Obligations.AddAndSubAreExactOrSentinel := by
  intro s
  constructor
  · rw [exec_add_eq, State.writeRes, word_fxAdd]
    rfl
  · rw [exec_sub_eq, State.writeRes, word_fxSub]
    rfl

/-- Settles O28: an exact sum less one operand is the other operand, which fits. -/
theorem subUndoesAdd : Obligations.SubUndoesAdd := by
  intro s x y h1 h2
  have hx := raw_bounds x
  have hsum : raw (x + y) = raw x + raw y := raw_add_of_range h1 h2
  have hdiff : raw (x + y) - raw y = raw x := by omega
  calc result .sub s (result .add s x y) y
    _ = result .sub s (x + y) y := by rw [result_add, word_fxAdd, if_pos ⟨h1, h2⟩]
    _ = x + y - y := by rw [result_sub, word_fxSub, hdiff, if_pos hx]
    _ = x := add_sub_cancel_right x y

section Mul
variable {st : Settings}

/-- Half a unit added before the floor, less one lsb for a negative product, rounds half away from zero (R74 (a)). -/
theorem mulRound_of_rnd (h : st.rnd = true) (p : Int) :
    mulRound st p = p.sign * ((p.natAbs + 32768) / 65536 : Nat) := by
  rw [mulRound, if_pos h]
  obtain hneg | rfl | hpos := lt_trichotomy p 0
  · rw [if_neg (by omega), Int.sign_eq_neg_one_of_neg hneg]
    omega
  · rfl
  · rw [if_pos hpos.le, Int.sign_eq_one_of_pos hpos]
    omega

theorem mulRound_of_not_rnd (h : ¬ st.rnd = true) (p : Int) : mulRound st p = p / 65536 := by
  rw [mulRound, if_neg h]

theorem mulRound_eq (st : Settings) (p : Int) :
    mulRound st p = if st.rnd then p.sign * ((p.natAbs + 32768) / 65536 : Nat) else p / 65536 := by
  by_cases h : st.rnd = true
  · rw [mulRound_of_rnd h, if_pos h]
  · rw [mulRound_of_not_rnd h, if_neg h]

/-- Bits [63:47] of the product are all equal exactly where it fits 48 signed bits (R74). -/
theorem topBits_uniform_iff (p : Int) :
    (p / 140737488355328 = 0 ∨ p / 140737488355328 = -1) ↔ -140737488355328 ≤ p ∧ p < 140737488355328 := by
  omega

/-- MUL in its closed form (R74). -/
theorem fxMul_eq (st : Settings) (a b : Int) :
    fxMul st a b =
      if -140737488355328 ≤ a * b ∧ a * b < 140737488355328 ∧ mulRound st (a * b) ≤ 2147483647
      then mulRound st (a * b) else sentinel := by
  simp only [fxMul, topBits_uniform_iff, ← not_le, ite_not]
  rw [← ite_and]
  simp only [and_assoc]

end Mul

/-- Settles O29: the closed form of MUL, with the rounded product named. -/
theorem mulRoundsTheExactProduct : Obligations.MulRoundsTheExactProduct := by
  intro s p r hp hr
  have hround : mulRound s.active (raw s.opa * raw s.opb) = r := by
    rw [mulRound_eq, hr, hp]
    rfl
  rw [exec_mul_eq, State.writeRes, fxMul_eq, hround, apply_ite word, hp]
  rfl

/-- Settles O30: each operand is 2^16 times its high limb plus its low limb, and the four partial products are the expansion. -/
theorem limbProductIsExact : Obligations.LimbProductIsExact := by
  intro a b
  have split_limbs (v : Int) : v = v / 65536 * 65536 + v % 65536 := (Int.ediv_mul_add_emod v 65536).symm
  calc limbProduct (raw a) (raw b)
    _ = (raw a / 65536 * 65536 + raw a % 65536) * (raw b / 65536 * 65536 + raw b % 65536) := by
      rw [limbProduct]
      ring
    _ = raw a * raw b := by rw [← split_limbs, ← split_limbs]

section Div

/-- One more where the doubled remainder reaches the divisor is the quotient to nearest, ties up (R75). -/
theorem div_add_one_of_two_mul_mod (n d : Nat) (hd : 0 < d) :
    (if d ≤ 2 * (n % d) then n / d + 1 else n / d) = (2 * n + d) / (2 * d) := by
  have hmod : n % d < d := Nat.mod_lt n hd
  have hsplit : 2 * n + d = 2 * (n % d) + d + 2 * d * (n / d) := by
    conv_lhs => rw [← Nat.div_add_mod n d]
    ring
  rw [hsplit, Nat.add_mul_div_left _ _ (by omega)]
  by_cases h : d ≤ 2 * (n % d)
  · have hone : (2 * (n % d) + d) / (2 * d) = 1 := Nat.div_eq_of_lt_le (by omega) (by omega)
    rw [if_pos h, hone, Nat.add_comm]
  · have hzero : (2 * (n % d) + d) / (2 * d) = 0 := Nat.div_eq_of_lt (by omega)
    rw [if_neg h, hzero, Nat.zero_add]

/-- The rounded magnitude of R75 in its closed form. -/
theorem divMagnitude_eq (st : Settings) (a : Int) {b : Int} (hb : b ≠ 0) :
    divMagnitude st a b =
      if st.rnd then (2 * (a.natAbs * 65536) + b.natAbs) / (2 * b.natAbs) else a.natAbs * 65536 / b.natAbs := by
  by_cases h : st.rnd = true
  · rw [if_pos h, ← div_add_one_of_two_mul_mod _ _ (Int.natAbs_pos.mpr hb)]
    simp only [divMagnitude, h, Bool.true_and, decide_eq_true_eq]
  · simp [divMagnitude, h]

/-- The sign of DIV is the XOR of the operands' top bits (R75). -/
theorem divNeg_raw (a b : Word) : divNeg (raw a) (raw b) = (a.msb != b.msb) := by
  rw [divNeg, msb_eq_raw_neg, msb_eq_raw_neg]

/-- What the last lines of R75 leave in `RES`. -/
theorem word_divFinish (st : Settings) (neg : Bool) (m : Nat) :
    word (divFinish st neg m) =
      if m < 2147483648 then (if neg then -(BitVec.ofNat 32 m) else BitVec.ofNat 32 m)
      else if st.sat then (if neg then st.min else st.max) else 0x80000000#32 := by
  have hm : word (m : Int) = BitVec.ofNat 32 m := BitVec.ofInt_natCast 32 m
  simp only [divFinish, divOverflow, ← not_lt, ite_not, apply_ite word, word_neg, word_raw, hm]
  rfl

end Div

/-- Settles O31: a zero divisor apart, `divFinish` of the magnitude in its closed form. -/
theorem divIsTheSignedRoundedQuotient : Obligations.DivIsTheSignedRoundedQuotient := by
  intro s m neg hm hneg
  rw [exec_div_eq, State.writeRes, fxDiv]
  by_cases hb : s.opb = 0
  · rw [if_pos ((raw_eq_zero_iff _).mpr hb), if_pos hb, word_raw]
  · have hb' : raw s.opb ≠ 0 := mt (raw_eq_zero_iff _).mp hb
    have hmag : divMagnitude s.active (raw s.opa) (raw s.opb) = m := (divMagnitude_eq _ _ hb').trans hm.symm
    rw [if_neg hb', if_neg hb, divNeg_raw, hmag, ← hneg, word_divFinish]

section Mod
variable {a b : Int}

/-- The dividend less the divisor times the truncated quotient is the truncating remainder (R77). -/
theorem fxMod_of_ne_zero (a : Int) (hb : b ≠ 0) : fxMod a b = a.tmod b := by
  rw [fxMod, if_neg hb, truncDiv, Int.tmod_def]

theorem natAbs_tmod_lt (a : Int) (hb : b ≠ 0) : (a.tmod b).natAbs < b.natAbs := by
  rw [Int.natAbs_tmod]
  exact Nat.mod_lt _ (Int.natAbs_pos.mpr hb)

theorem tmod_nonpos_of_nonpos (b : Int) (ha : a ≤ 0) : a.tmod b ≤ 0 := by
  have h : 0 ≤ (-a).tmod b := Int.tmod_nonneg b (by omega)
  rw [Int.neg_tmod] at h
  omega

end Mod

/-- Settles O33: MOD is the truncating remainder of the library, whose size, residue and sign are the three clauses. -/
theorem modIsTheTruncatingRemainder : Obligations.ModIsTheTruncatingRemainder := by
  intro s
  constructor
  · intro hb
    rw [exec_mod_eq, State.writeRes, fxMod, if_pos ((raw_eq_zero_iff _).mpr hb)]
    rfl
  · intro hb
    have hb' : raw s.opb ≠ 0 := mt (raw_eq_zero_iff _).mp hb
    refine ⟨(raw s.opa).tmod (raw s.opb), ?value, natAbs_tmod_lt _ hb', Int.dvd_self_sub_tmod, Int.tmod_nonneg _,
      tmod_nonpos_of_nonpos _⟩
    rw [exec_mod_eq, State.writeRes, fxMod_of_ne_zero _ hb']
    rfl

/-- Settles O34: the two branches of R78, with the sign read from the top bit. -/
theorem absNegatesNegatives : Obligations.AbsNegatesNegatives := by
  intro s
  rw [exec_abs_eq, State.writeRes, fxAbs, msb_eq_raw_neg]
  by_cases h : 0 ≤ raw s.opa
  · rw [if_pos h, word_raw, if_neg (by simpa using h)]
  · rw [if_neg h, wrap32, word_raw, word_neg, word_raw, if_pos (by simpa using h)]

section NearbyInteger

/-- Clearing the fraction bits gives the largest multiple of 1.0 not above the value (R79). -/
theorem integerPart_eq_word (w : Word) : integerPart w = word (raw w / 65536 * 65536) := by
  have hw := raw_bounds w
  have hshift : raw (w.sshiftRight 16) = raw w / 65536 := by
    rw [← word_raw_div_65536]
    exact wrap32_of_range (by omega) (by omega)
  have hhigh : (w.sshiftRight 16).extractLsb' 0 16 = w.extractLsb' 16 16 := by
    apply BitVec.eq_of_getLsbD_eq
    intro k hk
    have hk' : 16 + k < 32 := by omega
    simp [BitVec.getLsbD_sshiftRight, hk, hk']
    omega
  calc integerPart w
    _ = (w.sshiftRight 16).extractLsb' 0 16 ++ 0#16 := by rw [integerPart, hhigh]
    _ = (w.sshiftRight 16) <<< 16 := (shiftLeft_16_eq_append _).symm
    _ = word (raw w / 65536 * 65536) := by rw [← word_raw_mul_65536, hshift]

/-- Wrapping to 32 bits before the fraction bits are cleared changes nothing but the wrap. -/
theorem integerPart_word (v : Int) : integerPart (word v) = word (v / 65536 * 65536) := by
  obtain ⟨k, hk⟩ := wrap32_congr v
  have hfloor : wrap32 v / 65536 * 65536 = v / 65536 * 65536 + k * 4294967296 := by omega
  rw [integerPart_eq_word, raw_word, hfloor, word_add_mul_4294967296]

/-- The fraction bits of a word are its value modulo 1.0 (R80). -/
theorem fractionBits_eq_zero_iff (w : Word) : w.extractLsb' 0 16 = 0 ↔ raw w % 65536 = 0 := by
  have hnat : w.extractLsb' 0 16 = 0 ↔ w.toNat % 65536 = 0 := by
    rw [← BitVec.toNat_inj]
    simp
  have hraw : raw w = w.toNat ∨ raw w = w.toNat - 4294967296 := by
    rw [raw, BitVec.toInt_eq_toNat_cond]
    split_ifs
    · exact Or.inl rfl
    · exact Or.inr rfl
  rw [hnat]
  omega

/-- FLOOR (R79). -/
theorem word_fxFloor (w : Word) : word (fxFloor (raw w)) = word (raw w / 65536 * 65536) := by
  rw [fxFloor, word_raw, word_raw, integerPart_eq_word]

/-- CEIL is minus the floor of minus the operand (R80). -/
theorem word_fxCeil (w : Word) : word (fxCeil (raw w)) = word (-(-raw w / 65536) * 65536) := by
  simp only [fxCeil, word_raw, integerPart_eq_word, ne_eq, fractionBits_eq_zero_iff, ite_not]
  by_cases h : raw w % 65536 = 0
  · have hceil : -(-raw w / 65536) * 65536 = raw w / 65536 * 65536 := by omega
    rw [if_pos h, hceil, BitVec.add_zero]
  · have hceil : -(-raw w / 65536) * 65536 = raw w / 65536 * 65536 + 65536 := by omega
    rw [if_neg h, hceil, word_add]
    rfl

/-- ROUND is the floor of half a unit more (R81). -/
theorem word_fxRound (w : Word) : word (fxRound (raw w)) = word ((raw w + 32768) / 65536 * 65536) := by
  have hsum : w + 0x00008000#32 = word (raw w + 32768) := by
    rw [word_add, word_raw]
    rfl
  rw [fxRound, word_raw, word_raw, hsum, integerPart_word]

end NearbyInteger

/-- Settles O35: the quotients of `word_fxFloor`, `word_fxCeil` and `word_fxRound` are the three integers. -/
theorem floorCeilRoundGiveTheNearbyInteger : Obligations.FloorCeilRoundGiveTheNearbyInteger := by
  intro s
  refine ⟨raw s.opa / 65536, -(-raw s.opa / 65536), (raw s.opa + 32768) / 65536,
    ?floor, ?_, ?_, ?ceil, ?_, ?_, ?round, ?_, ?_⟩
  case floor =>
    rw [exec_floor_eq, State.writeRes, word_fxFloor]
    rfl
  case ceil =>
    rw [exec_ceil_eq, State.writeRes, word_fxCeil]
    rfl
  case round =>
    rw [exec_round_eq, State.writeRes, word_fxRound]
    rfl
  all_goals
    rw [raw]
    omega

end Sys2Proof.Machine
end

section
/-! PROOFS. The bit-serial divider of R76 gives DIV (R75): the divisor is aligned by doublings, the aligned divisor and the marker
keep the ratio of the divisor to 1.0, and the digits produced under that ratio are those of the quotient. -/

namespace Sys2Proof.Machine

section Align

/-- The alignment is some number of doublings, of which the last began below the dividend. -/
theorem divAlign_eq_doublings (k rem dv mark : Nat) (hmark : mark < 4294967296) :
    ∃ i, divAlign k rem dv mark = (2 ^ i * dv, 2 ^ i * mark % 4294967296) ∧ (i = 0 ∨ 2 ^ i * dv < 2 * rem) := by
  induction k generalizing dv mark with
  | zero => exact ⟨0, by rw [divAlign, pow_zero, one_mul, one_mul, Nat.mod_eq_of_lt hmark], Or.inl rfl⟩
  | succ k ih =>
    rw [divAlign]
    by_cases h : dv < rem
    · obtain ⟨i, heq, hlast⟩ := ih (2 * dv) (2 * mark % 4294967296) (Nat.mod_lt _ (by decide))
      have hdv : 2 ^ i * (2 * dv) = 2 ^ (i + 1) * dv := by ring
      have hmk : 2 ^ i * (2 * mark % 4294967296) % 4294967296 = 2 ^ (i + 1) * mark % 4294967296 := by
        rw [Nat.mul_mod_mod, pow_succ, mul_assoc]
      refine ⟨i + 1, by rw [if_pos h, heq, hdv, hmk], Or.inr ?_⟩
      rw [← hdv]
      obtain rfl | hlast := hlast
      · omega
      · exact hlast
    · exact ⟨0, by rw [if_neg h, pow_zero, one_mul, one_mul, Nat.mod_eq_of_lt hmark], Or.inl rfl⟩

/-- The marker stays in its 32 bits for fifteen doublings and slides out with the sixteenth (R76). -/
theorem doubled_marker (i : Nat) :
    2 ^ i * 65536 % 4294967296 = if i < 16 then 2 ^ (16 + i) else 0 := by
  have hpow : 2 ^ i * 65536 = 2 ^ (16 + i) := by ring
  by_cases h : i < 16
  · have hlt : 2 ^ (16 + i) < 2 ^ 32 := Nat.pow_lt_pow_right (by decide) (by omega)
    rw [if_pos h, hpow]
    exact Nat.mod_eq_of_lt hlt
  · have hdvd : 2 ^ 32 ∣ 2 ^ (16 + i) := Nat.pow_dvd_pow 2 (by omega)
    rw [if_neg h, hpow]
    exact Nat.mod_eq_zero_of_dvd hdvd

end Align

section Digits

theorem divBits_of_rem_eq_zero (k dv mark quo : Nat) : divBits k 0 dv mark quo = (0, quo) := by
  cases k with
  | zero => rfl
  | succ k => rw [divBits, if_neg (fun h => h.2 rfl)]

theorem divBits_of_mark_eq_zero (k rem dv quo : Nat) : divBits k rem dv 0 quo = (rem, quo) := by
  cases k with
  | zero => rfl
  | succ k => rw [divBits, if_neg (fun h => h.1 rfl)]

/-- One digit of the quotient, at a marker that is set, with a remainder that is not exhausted (R76). -/
theorem divBits_digit (k j : Nat) {rem dv quo : Nat} (hrem : rem ≠ 0) :
    divBits (k + 1) rem dv (2 ^ j) quo =
      if dv ≤ rem then divBits k (2 * (rem - dv)) dv (2 ^ j / 2) (quo ||| 2 ^ j)
      else divBits k (2 * rem) dv (2 ^ j / 2) quo := by
  rw [divBits, if_pos ⟨(Nat.two_pow_pos j).ne', hrem⟩]

/-- From a remainder below twice the divisor, the digits from marker `2^j` down are the quotient of `rem * 2^j`, put under the
quotient so far, and what is left is the doubled remainder. -/
theorem divBits_eq_div_mod (k : Nat) {j rem dv quo : Nat} (hj : j < k) (hrem : rem < 2 * dv)
    (hquo : 2 ^ (j + 1) ∣ quo) :
    divBits k rem dv (2 ^ j) quo = (2 * (rem * 2 ^ j % dv), quo + rem * 2 ^ j / dv) := by
  induction k generalizing j rem quo with
  | zero => omega
  | succ k ih =>
    obtain rfl | hpos := Nat.eq_zero_or_pos rem
    · simp [divBits_of_rem_eq_zero]
    · have hor : quo ||| 2 ^ j = quo + 2 ^ j := by
        obtain ⟨c, rfl⟩ := hquo
        exact (Nat.two_pow_add_eq_or_of_lt (Nat.pow_lt_pow_right (by decide) (by omega)) c).symm
      rw [divBits_digit k j hpos.ne', hor]
      cases j with
      | zero =>
        rw [pow_zero, mul_one, Nat.div_eq_of_lt (by decide : 1 < 2), divBits_of_mark_eq_zero, divBits_of_mark_eq_zero]
        by_cases hle : dv ≤ rem
        · have hone : rem / dv = 1 := Nat.div_eq_of_lt_le (by omega) (by omega)
          rw [if_pos hle, hone, Nat.mod_eq_sub_mod hle, Nat.mod_eq_of_lt (by omega)]
        · rw [if_neg hle, Nat.div_eq_of_lt (by omega), Nat.mod_eq_of_lt (by omega), Nat.add_zero]
      | succ j =>
        have hhalf : 2 ^ (j + 1) / 2 = 2 ^ j := by rw [pow_succ, Nat.mul_div_cancel _ (by decide)]
        have hquo' : 2 ^ (j + 1) ∣ quo := (Nat.pow_dvd_pow 2 (by omega)).trans hquo
        rw [hhalf]
        by_cases hle : dv ≤ rem
        · have hsplit : rem * 2 ^ (j + 1) = 2 * (rem - dv) * 2 ^ j + dv * 2 ^ (j + 1) := by
            obtain ⟨c, rfl⟩ := Nat.exists_eq_add_of_le hle
            rw [Nat.add_sub_cancel_left]
            ring
          rw [if_pos hle, ih (by omega) (by omega) ((Nat.dvd_add_right hquo').mpr dvd_rfl), hsplit,
            Nat.add_mul_mod_self_left, Nat.add_mul_div_left _ _ (by omega), Nat.add_right_comm, Nat.add_assoc]
        · have hdouble : rem * 2 ^ (j + 1) = 2 * rem * 2 ^ j := by ring
          rw [if_neg hle, ih (by omega) (by omega) hquo', hdouble]

end Digits

section Ratio
variable {n d dv j : Nat}

/-- An aligned divisor and its marker, in the ratio of the divisor to 1.0, give the quotient of the dividend scaled by 1.0. -/
theorem aligned_div (hratio : dv * 65536 = d * 2 ^ j) : n * 2 ^ j / dv = n * 65536 / d :=
  calc n * 2 ^ j / dv
    _ = n * 2 ^ j * 65536 / (dv * 65536) := (Nat.mul_div_mul_right _ _ (by decide)).symm
    _ = n * 65536 * 2 ^ j / (d * 2 ^ j) := by rw [hratio, Nat.mul_right_comm]
    _ = n * 65536 / d := Nat.mul_div_mul_right _ _ (Nat.two_pow_pos j)

/-- The remainders of the two divisions are in the same ratio. -/
theorem aligned_mod (hratio : dv * 65536 = d * 2 ^ j) :
    n * 2 ^ j % dv * 65536 = n * 65536 % d * 2 ^ j := by
  rw [← Nat.mul_mod_mul_right, ← Nat.mul_mod_mul_right, hratio, Nat.mul_right_comm]

/-- So the rounding test on the doubled remainder of R76 is that of R75. -/
theorem aligned_round_iff (hratio : dv * 65536 = d * 2 ^ j) :
    dv ≤ 2 * (n * 2 ^ j % dv) ↔ d ≤ 2 * (n * 65536 % d) := by
  have hmod : n * 2 ^ j % dv * 65536 = n * 65536 % d * 2 ^ j := aligned_mod hratio
  calc dv ≤ 2 * (n * 2 ^ j % dv)
    _ ↔ dv * 65536 ≤ 2 * (n * 2 ^ j % dv * 65536) := by omega
    _ ↔ d * 2 ^ j ≤ 2 * (n * 65536 % d) * 2 ^ j := by rw [hratio, hmod, Nat.mul_assoc]
    _ ↔ d ≤ 2 * (n * 65536 % d) := Nat.mul_le_mul_right_iff (Nat.two_pow_pos j)

end Ratio

section Magnitude
variable {st : Settings} {a b : Int} {dv j : Nat}

/-- The last line of R76: the quotient, one more where the doubled remainder reaches the divisor. -/
def divRound (st : Settings) (dv : Nat) (digits : Nat × Nat) : Nat :=
  if st.rnd && decide (dv ≤ digits.1) then digits.2 + 1 else digits.2

/-- The digits of the aligned divisor, rounded, are the magnitude of R75. -/
theorem divRound_digits (hratio : dv * 65536 = b.natAbs * 2 ^ j) (hj : j < 32) (hlt : a.natAbs < 2 * dv) :
    divRound st dv (divBits 32 a.natAbs dv (2 ^ j) 0) = divMagnitude st a b := by
  rw [divBits_eq_div_mod 32 hj hlt (dvd_zero _)]
  simp only [divRound, divMagnitude, aligned_round_iff hratio, aligned_div hratio, Nat.zero_add]

/-- A dividend equal to the aligned divisor has the marker as its exact quotient. -/
theorem divMagnitude_of_eq_aligned (st : Settings) (hratio : a.natAbs * 65536 = b.natAbs * 2 ^ j) (hb : b ≠ 0) :
    divMagnitude st a b = 2 ^ j := by
  have hd : 0 < b.natAbs := Int.natAbs_pos.mpr hb
  have hdiv : a.natAbs * 65536 / b.natAbs = 2 ^ j := by rw [hratio, Nat.mul_div_cancel_left _ hd]
  have hmod : a.natAbs * 65536 % b.natAbs = 0 := by rw [hratio, Nat.mul_mod_right]
  simp [divMagnitude, hdiv, hmod, hd.ne']

/-- The step taken at bit 31 either finds the dividend equal to the divisor or halves divisor and marker together, so the digits
after it are those of the quotient (R76). -/
theorem divRound_after_topStep {rem dv1 mark quo : Nat} (hratio : dv * 65536 = b.natAbs * 2 ^ (j + 1)) (hj : j + 1 < 32)
    (hle : a.natAbs ≤ dv) (hb : b ≠ 0) (hpos : 0 < dv) (heven : 2147483648 ≤ dv → 2 ∣ dv)
    (htop : divTopStep a.natAbs dv (2 ^ (j + 1)) = (rem, dv1, mark, quo)) :
    divRound st dv1 (divBits 32 rem dv1 mark quo) = divMagnitude st a b := by
  rw [divTopStep] at htop
  by_cases hbit : 2147483648 ≤ dv
  · rw [if_pos hbit] at htop
    by_cases hge : dv ≤ a.natAbs
    · obtain rfl : dv = a.natAbs := hge.antisymm hle
      rw [if_pos hge, Nat.sub_self] at htop
      cases htop
      rw [divBits_of_rem_eq_zero, divMagnitude_of_eq_aligned st hratio hb]
      have hno : ¬ a.natAbs / 2 ≤ 0 := by omega
      simp [divRound, hno]
    · obtain ⟨c, rfl⟩ := heven hbit
      have hhalf : 2 * c / 2 = c := Nat.mul_div_cancel_left _ (by decide)
      have hmark : 2 ^ (j + 1) / 2 = 2 ^ j := by rw [pow_succ, Nat.mul_div_cancel _ (by decide)]
      have hratio' : c * 65536 = b.natAbs * 2 ^ j := by
        rw [pow_succ] at hratio
        linarith
      rw [if_neg hge, hhalf, hmark] at htop
      cases htop
      exact divRound_digits hratio' (by omega) (by omega)
  · rw [if_neg hbit] at htop
    cases htop
    exact divRound_digits hratio hj (by omega)

end Magnitude

section Serial
variable {st : Settings} {a b : Int} {i : Nat}

theorem divSerialMagnitude_of_mark_eq_zero {dv : Nat}
    (halign : divAlign 32 a.natAbs b.natAbs 65536 = (dv, 0)) : divSerialMagnitude st a b = none := by
  simp only [divSerialMagnitude, halign, if_true]

theorem divSerialMagnitude_of_mark_ne_zero {dv mark rem1 dv1 mark1 quo1 : Nat}
    (halign : divAlign 32 a.natAbs b.natAbs 65536 = (dv, mark)) (hmark : mark ≠ 0)
    (htop : divTopStep a.natAbs dv mark = (rem1, dv1, mark1, quo1)) :
    divSerialMagnitude st a b = some (divRound st dv1 (divBits 32 rem1 dv1 mark1 quo1)) := by
  simp only [divSerialMagnitude, halign, if_neg hmark, htop, divRound]

/-- A marker that slid out belongs to a quotient of 2^31 or more (R76). -/
theorem divMagnitude_ge_of_doublings (st : Settings) (hi : 16 ≤ i) (hlast : 2 ^ i * b.natAbs < 2 * a.natAbs) (hb : b ≠ 0) :
    2147483648 ≤ divMagnitude st a b := by
  have hpow : 2 ^ 16 * b.natAbs ≤ 2 ^ i * b.natAbs := Nat.mul_le_mul_right _ (Nat.pow_le_pow_right (by decide) hi)
  have hquot : 2147483648 ≤ a.natAbs * 65536 / b.natAbs := by
    rw [Nat.le_div_iff_mul_le (Int.natAbs_pos.mpr hb)]
    omega
  exact hquot.trans (divMagnitude_bounds st a b).1

/-- A divisor of at most 2^31 that has bit 31 set after its doublings is even. -/
theorem two_dvd_doubled {d : Nat} (hd : d ≤ 2147483648) (hbit : 2147483648 ≤ 2 ^ i * d) : 2 ∣ 2 ^ i * d := by
  cases i with
  | zero => omega
  | succ i => exact Dvd.dvd.mul_right (dvd_pow_self 2 i.succ_ne_zero) d

/-- The datapath gives the magnitude of R75, or gives none where that magnitude is 2^31 or more. -/
theorem divSerialMagnitude_cases (st : Settings) (ha : a.natAbs ≤ 2147483648)
    (hbmax : b.natAbs ≤ 2147483648) (hb : b ≠ 0) :
    divSerialMagnitude st a b = some (divMagnitude st a b) ∨
      divSerialMagnitude st a b = none ∧ 2147483648 ≤ divMagnitude st a b := by
  have hd : 0 < b.natAbs := Int.natAbs_pos.mpr hb
  obtain ⟨i, halign, hlast⟩ := divAlign_eq_doublings 32 a.natAbs b.natAbs 65536 (by decide)
  have hle : a.natAbs ≤ 2 ^ i * b.natAbs := by
    have hexit : a.natAbs ≤ (divAlign 32 a.natAbs b.natAbs 65536).1 := divAlign_exits _ _ _ _ (by omega)
    rwa [halign] at hexit
  rw [doubled_marker] at halign
  by_cases hi : i < 16
  · left
    rw [if_pos hi] at halign
    obtain ⟨⟨rem1, dv1, mark1, quo1⟩, htop⟩ : ∃ r, divTopStep a.natAbs (2 ^ i * b.natAbs) (2 ^ (16 + i)) = r := ⟨_, rfl⟩
    have hsucc : 16 + i = 15 + i + 1 := by omega
    have hratio : 2 ^ i * b.natAbs * 65536 = b.natAbs * 2 ^ (15 + i + 1) := by ring
    rw [divSerialMagnitude_of_mark_ne_zero halign (Nat.two_pow_pos _).ne' htop]
    rw [hsucc] at htop
    have hpos : 0 < 2 ^ i * b.natAbs := Nat.mul_pos (Nat.two_pow_pos i) hd
    rw [divRound_after_topStep hratio (by omega) hle hb hpos (two_dvd_doubled hbmax) htop]
  · right
    rw [if_neg hi] at halign
    have hlast' : 2 ^ i * b.natAbs < 2 * a.natAbs := hlast.resolve_left (by omega)
    exact ⟨divSerialMagnitude_of_mark_eq_zero halign, divMagnitude_ge_of_doublings st (by omega) hlast' hb⟩

end Serial

/-- Settles O32: the datapath's magnitude goes through the same last step, and where it has none that step overflows. -/
theorem divDatapathRefinesDiv : Obligations.DivDatapathRefinesDiv := by
  intro st a b
  by_cases hb : raw b = 0
  · rw [fxDivSerial, fxDiv, if_pos hb, if_pos hb]
  · rw [fxDivSerial, fxDiv, if_neg hb, if_neg hb]
    obtain hsome | ⟨hnone, hlarge⟩ := divSerialMagnitude_cases st (natAbs_raw_le a) (natAbs_raw_le b) hb
    · rw [hsome]
    · rw [hnone, divFinish, if_pos hlarge]

end Sys2Proof.Machine
end

section
/-! PROOFS. SQRT (`43_sqrt_log2.md`): the root R90 asks for, rounded down or to nearest, and the digit extractor of R91, which
keeps the radicand less the square of the root so far. -/

namespace Sys2Proof.Machine

section Words
variable {w : Word} {n : Nat}

theorem word_natCast (n : Nat) : word (n : Int) = BitVec.ofNat 32 n := BitVec.ofInt_natCast 32 n

/-- A pattern with its top bit clear is its unsigned number. -/
theorem raw_eq_toNat (h : 0 ≤ raw w) : raw w = (w.toNat : Int) := by
  rw [raw, BitVec.toInt_eq_toNat_cond] at h ⊢
  split_ifs at h ⊢
  · rfl
  · omega

/-- A number below 2^31 is read back from its pattern. -/
theorem raw_ofNat (h : n ≤ 2147483647) : raw (BitVec.ofNat 32 n) = (n : Int) := by
  rw [← word_natCast, raw_word]
  exact wrap32_of_range (by omega) (by omega)

end Words

section Root
variable {st : Settings} {a n : Nat}

theorem exec_sqrt_eq (s : State) : exec .sqrt s = .next (s.writeRes (fxSqrt s.active (raw s.opa))) := rfl

theorem fxSqrt_of_nonpos {v : Int} (h : v ≤ 0) : fxSqrt st v = sentinel := if_pos h

theorem fxSqrt_of_pos {v : Int} (h : 0 < v) : fxSqrt st v = (sqrtPositive st v.toNat : Int) := if_neg (not_le.mpr h)

theorem sqrtPositive_of_not_rnd (h : ¬ st.rnd = true) (a : Nat) : sqrtPositive st a = isqrt (a * 65536) := by
  simp [sqrtPositive, h]

theorem sqrtPositive_of_rnd (h : st.rnd = true) (a : Nat) :
    sqrtPositive st a =
      if isqrt (a * 65536) < a * 65536 - isqrt (a * 65536) * isqrt (a * 65536) then isqrt (a * 65536) + 1
      else isqrt (a * 65536) := by
  simp [sqrtPositive, h]

/-- A radicand above zero has a root above zero. -/
theorem isqrt_pos (hn : 0 < n) (h48 : n < 2 ^ 48) : 0 < isqrt n := by
  obtain ⟨-, hlt⟩ := isqrt_spec h48
  by_contra hpos
  have hzero : isqrt n = 0 := by omega
  rw [hzero] at hlt
  omega

/-- With `RND` = 0 the result is the root rounded down (R90). -/
theorem sqrtPositive_floor (h : ¬ st.rnd = true) (h48 : a * 65536 < 2 ^ 48) :
    sqrtPositive st a * sqrtPositive st a ≤ a * 65536 ∧
      a * 65536 < (sqrtPositive st a + 1) * (sqrtPositive st a + 1) := by
  rw [sqrtPositive_of_not_rnd h]
  exact isqrt_spec h48

/-- With `RND` = 1 the result is the root to nearest: the remainder exceeds the root exactly where the radicand lies above the
square of the root and a half (R90). -/
theorem sqrtPositive_nearest (h : st.rnd = true) (ha : 0 < a) (h48 : a * 65536 < 2 ^ 48) :
    (2 * sqrtPositive st a - 1) * (2 * sqrtPositive st a - 1) < 4 * (a * 65536) ∧
      4 * (a * 65536) < (2 * sqrtPositive st a + 1) * (2 * sqrtPositive st a + 1) := by
  rw [sqrtPositive_of_rnd h]
  obtain ⟨hle, hlt⟩ := isqrt_spec h48
  obtain ⟨c, hc⟩ : ∃ c, isqrt (a * 65536) = c + 1 := Nat.exists_eq_succ_of_ne_zero (isqrt_pos (by omega) h48).ne'
  rw [hc] at hle hlt ⊢
  have hlow : 2 * (c + 1) - 1 = 2 * c + 1 := by omega
  have hhigh : 2 * (c + 1 + 1) - 1 = 2 * c + 3 := by omega
  split_ifs with hround
  · rw [hhigh]
    constructor <;> nlinarith [Nat.sub_add_cancel hle]
  · rw [hlow]
    constructor <;> nlinarith [Nat.sub_add_cancel hle]

/-- Under either setting the result is less than a unit above the root and less than half a unit below it. -/
theorem sqrtPositive_near_root (st : Settings) (ha : 0 < a) (h48 : a * 65536 < 2 ^ 48) :
    (2 * sqrtPositive st a - 1) * (2 * sqrtPositive st a - 1) < 4 * (a * 65536) ∧
      a * 65536 < (sqrtPositive st a + 1) * (sqrtPositive st a + 1) := by
  by_cases h : st.rnd = true
  · obtain ⟨hlow, hhigh⟩ := sqrtPositive_nearest h ha h48
    exact ⟨hlow, by nlinarith⟩
  · obtain ⟨hle, hlt⟩ := sqrtPositive_floor h h48
    refine ⟨?_, hlt⟩
    have hpos : 0 < sqrtPositive st a := by
      rw [sqrtPositive_of_not_rnd h]
      exact isqrt_pos (by omega) h48
    calc (2 * sqrtPositive st a - 1) * (2 * sqrtPositive st a - 1)
      _ < 2 * sqrtPositive st a * (2 * sqrtPositive st a) := Nat.mul_lt_mul'' (by omega) (by omega)
      _ = 4 * (sqrtPositive st a * sqrtPositive st a) := by ring
      _ ≤ 4 * (a * 65536) := Nat.mul_le_mul_left 4 hle

/-- The least and the greatest root of a positive operand. -/
theorem sqrtPositive_bounds (st : Settings) (ha : 0 < a) (hmax : a ≤ 2147483647) :
    256 ≤ sqrtPositive st a ∧ sqrtPositive st a ≤ 0x00B504F3 := by
  obtain ⟨hlow, hhigh⟩ := sqrtPositive_near_root st ha (by omega)
  constructor
  · by_contra hsmall
    have hsquare : (sqrtPositive st a + 1) * (sqrtPositive st a + 1) ≤ 256 * 256 :=
      Nat.mul_le_mul (by omega) (by omega)
    omega
  · by_contra hlarge
    have hsquare : 23726567 * 23726567 ≤ (2 * sqrtPositive st a - 1) * (2 * sqrtPositive st a - 1) :=
      Nat.mul_le_mul (by omega) (by omega)
    omega

end Root

/-- Settles O36: the two signs of the operand, and above zero the bounds and the two roundings of `sqrtPositive`. -/
theorem sqrtIsTheRoundedRoot : Obligations.SqrtIsTheRoundedRoot := by
  intro s
  constructor
  · intro h
    have hneg : raw s.opa ≤ 0 := h
    rw [exec_sqrt_eq, State.writeRes, fxSqrt_of_nonpos hneg]
    rfl
  · intro h
    have hpos : 0 < raw s.opa := h
    have hnat : raw s.opa = (s.opa.toNat : Int) := raw_eq_toNat hpos.le
    have hmax : raw s.opa ≤ 2147483647 := (raw_bounds s.opa).2
    have ha : 0 < s.opa.toNat := by omega
    obtain ⟨hlow, hhigh⟩ := sqrtPositive_bounds s.active ha (by omega)
    refine ⟨sqrtPositive s.active s.opa.toNat, ?_, hlow, hhigh, fun hr => ?_, fun hr => ?_⟩
    · rw [exec_sqrt_eq, State.writeRes, fxSqrt_of_pos hpos, hnat, Int.toNat_natCast, word_natCast]
    · exact sqrtPositive_floor (by simp [hr]) (by omega)
    · exact sqrtPositive_nearest hr ha (by omega)

section Digits

/-- The digits keep the radicand less the square of the root so far, and hold that root at the place of the digit to come (R91). -/
theorem sqrtDigits_eq_isqrtBits (k n r : Nat) (h : r * r ≤ n) :
    sqrtDigits k (n - r * r) (r * 2 ^ k) = (n - isqrtBits k n r * isqrtBits k n r, isqrtBits k n r) := by
  induction k generalizing r with
  | zero => rw [sqrtDigits, isqrtBits, pow_zero, mul_one]
  | succ k ih =>
    have hroot : r * 2 ^ (k + 1) / 2 = r * 2 ^ k := by rw [pow_succ, ← mul_assoc, Nat.mul_div_cancel _ (by decide)]
    have hsquare : (r + 2 ^ k) * (r + 2 ^ k) = r * r + (r * 2 ^ (k + 1) + 4 ^ k) := by
      rw [show (4 : Nat) = 2 * 2 from rfl, mul_pow]
      ring
    have hfit : r * 2 ^ (k + 1) + 4 ^ k ≤ n - r * r ↔ (r + 2 ^ k) * (r + 2 ^ k) ≤ n := by
      rw [hsquare]
      omega
    rw [sqrtDigits, sqrtDigit, isqrtBits, hroot]
    by_cases hbit : (r + 2 ^ k) * (r + 2 ^ k) ≤ n
    · have hnext : r * 2 ^ k + 4 ^ k = (r + 2 ^ k) * 2 ^ k := by
        rw [show (4 : Nat) = 2 * 2 from rfl, mul_pow]
        ring
      rw [if_pos hbit, if_pos (hfit.mpr hbit), ← ih _ hbit, Nat.sub_sub, ← hsquare, hnext]
    · rw [if_neg hbit, if_neg (mt hfit.mp hbit), ih r h]

/-- Twenty-four digits from an empty root extract the integer square root and its remainder. -/
theorem sqrtDigits_eq_isqrt (n : Nat) : sqrtDigits 24 n 0 = (n - isqrt n * isqrt n, isqrt n) := by
  simpa [isqrt] using sqrtDigits_eq_isqrtBits 24 n 0 (Nat.zero_le n)

end Digits

/-- Settles O37: the extractor's root and remainder are those R90 rounds by. -/
theorem sqrtDatapathRefinesSqrt : Obligations.SqrtDatapathRefinesSqrt := by
  intro st a
  by_cases h : raw a ≤ 0
  · rw [fxSqrtDigits, fxSqrt, if_pos h, if_pos h]
  · rw [fxSqrtDigits, fxSqrt, if_neg h, if_neg h, sqrtDigits_eq_isqrt, sqrtPositive]
    generalize isqrt ((raw a).toNat * 65536) = r
    simp only [Nat.cast_ite, Nat.cast_add, Nat.cast_one]

end Sys2Proof.Machine
end

section
/-! PROOFS. LOG2 (`43_sqrt_log2.md`, R93, R94): `log2core` is the count of halvings, as the integer part, and the bits of the
squaring stages; an operand below one unit goes through its reciprocal. -/

namespace Sys2Proof.Machine

section Commands

theorem exec_log2_eq (s : State) : exec .log2 s = .next (s.writeRes (fxLog2 s.active (raw s.opa))) := rfl

theorem result_log2 (s : State) (a b : Word) : result .log2 s a b = word (fxLog2 s.active (raw a)) :=
  result_of_exec (exec_log2_eq _)

end Commands

section Stages
variable {st : Settings} {v : Int}

theorem log2Stage_succ (st : Settings) (v : Int) (k : Nat) :
    log2Stage st v (k + 1) =
      if fxMul st (log2Stage st v k) (log2Stage st v k) < 131072 then fxMul st (log2Stage st v k) (log2Stage st v k)
      else log2Rs st (fxMul st (log2Stage st v k) (log2Stage st v k)) := rfl

theorem log2Bit_bounds (st : Settings) (v : Int) (k : Nat) : 0 ≤ log2Bit st v k ∧ log2Bit st v k ≤ 1 := by
  rw [log2Bit]
  split_ifs <;> decide

/-- One squaring stage shifts its bit into the result and passes the next value on (R94). -/
theorem log2Stages_succ (st : Settings) (v : Int) (k j : Nat) (res : Int) :
    log2Stages st (k + 1) (log2Stage st v j) res =
      log2Stages st k (log2Stage st v (j + 1)) (2 * res + log2Bit st v j) := by
  simp only [log2Stages, two, log2Stage_succ, log2Bit, ← not_lt]
  by_cases hq : fxMul st (log2Stage st v j) (log2Stage st v j) < 131072
  · simp only [hq, not_true, if_true, if_false, add_zero]
  · simp only [hq, not_false_eq_true, if_true, if_false]

/-- The stages from the `j`th on append their bits, the first of them the highest, to the result so far (R94). -/
theorem log2Stages_eq_sum (st : Settings) (v : Int) (k j : Nat) (res : Int) :
    log2Stages st k (log2Stage st v j) res =
      (log2Stage st v (j + k), res * 2 ^ k + (Finset.range k).sum (fun i => log2Bit st v (j + i) * 2 ^ (k - 1 - i))) := by
  induction k generalizing j res with
  | zero => simp [log2Stages]
  | succ k ih =>
    have hindex (i : Nat) : j + (i + 1) = j + 1 + i := by omega
    have hplace (i : Nat) : k + 1 - 1 - (i + 1) = k - 1 - i := by omega
    have hrest : (Finset.range k).sum (fun i => log2Bit st v (j + (i + 1)) * 2 ^ (k + 1 - 1 - (i + 1)))
        = (Finset.range k).sum (fun i => log2Bit st v (j + 1 + i) * 2 ^ (k - 1 - i)) :=
      Finset.sum_congr rfl (fun i _ => by rw [hindex, hplace])
    rw [log2Stages_succ, ih, Finset.sum_range_succ', hrest, hindex k, Prod.mk.injEq]
    refine ⟨rfl, ?_⟩
    rw [Nat.add_zero j, Nat.sub_zero, Nat.add_sub_cancel]
    ring

/-- The sixteen stages of R93 append sixteen bits. -/
theorem log2Stages_sixteen (st : Settings) (v res : Int) :
    log2Stages st 16 v res =
      (log2Stage st v 16, res * 65536 + (Finset.range 16).sum (fun k => log2Bit st v k * 2 ^ (15 - k))) := by
  have hsum := log2Stages_eq_sum st v 16 0 res
  simp only [Nat.zero_add] at hsum
  exact hsum

/-- What `log2core` adds to the count of halvings: sixteen stage bits, and with `RND` = 1 the bit of the final check (R93). -/
def log2Fraction (st : Settings) (v : Int) : Int :=
  (Finset.range 16).sum (fun k => log2Bit st v k * 2 ^ (15 - k)) + (if st.rnd then log2Bit st v 16 else 0)

/-- `log2core` is the count of halvings and the fraction of the value they leave (R93). -/
theorem log2Core_eq (st : Settings) (v : Int) :
    log2Core st v = ((log2Halve st 15 v 0).2 : Int) * 65536 + log2Fraction st (log2Halve st 15 v 0).1 := by
  rw [log2Core]
  generalize log2Halve st 15 v 0 = h
  obtain ⟨m, n⟩ := h
  simp only [log2Stages_sixteen, log2Fraction, two, Bool.and_eq_true, decide_eq_true_eq]
  by_cases hr : st.rnd = true
  · by_cases hq : 131072 ≤ fxMul st (log2Stage st m 16) (log2Stage st m 16)
    · simp only [hr, hq, log2Bit, not_lt.mpr hq, and_self, if_true, if_false, add_assoc]
    · simp only [hr, hq, log2Bit, not_le.mp hq, and_false, if_true, if_false, add_zero]
  · simp only [hr, Bool.false_eq_true, false_and, if_false, add_zero]

/-- The stage bits fill sixteen places, and the final check adds at most one (R93). -/
theorem log2Fraction_bounds (st : Settings) (v : Int) : 0 ≤ log2Fraction st v ∧ log2Fraction st v ≤ 65536 := by
  have hbit := log2Bit_bounds st v
  have hplace (k : Nat) : (0 : Int) ≤ 2 ^ (15 - k) := by positivity
  have hlow : 0 ≤ (Finset.range 16).sum (fun k => log2Bit st v k * 2 ^ (15 - k)) :=
    Finset.sum_nonneg (fun k _ => mul_nonneg (hbit k).1 (hplace k))
  have hhigh : (Finset.range 16).sum (fun k => log2Bit st v k * 2 ^ (15 - k)) ≤ 65535 :=
    calc (Finset.range 16).sum (fun k => log2Bit st v k * 2 ^ (15 - k))
      _ ≤ (Finset.range 16).sum (fun k => (2 : Int) ^ (15 - k)) :=
        Finset.sum_le_sum (fun k _ => mul_le_of_le_one_left (hplace k) (hbit k).2)
      _ = 65535 := by decide
  have hcheck := hbit 16
  rw [log2Fraction]
  split_ifs <;> omega

theorem fxMul_one_one (st : Settings) : fxMul st 65536 65536 = 65536 := by
  by_cases h : st.rnd = true <;> simp [fxMul_eq, mulRound, h]

/-- The square of one unit is one unit, so every stage passes it on (R93 (d)). -/
theorem log2Stage_one (st : Settings) (k : Nat) : log2Stage st 65536 k = 65536 := by
  induction k with
  | zero => rfl
  | succ k ih => rw [log2Stage_succ, ih, fxMul_one_one, if_pos (by decide)]

theorem log2Fraction_one (st : Settings) : log2Fraction st 65536 = 0 := by
  have hbit (k : Nat) : log2Bit st 65536 k = 0 := by
    rw [log2Bit, log2Stage_one, fxMul_one_one, if_pos (by decide)]
  simp [log2Fraction, hbit]

end Stages

section Halvings
variable {st : Settings} {v : Int} {k n : Nat}

theorem log2Rs_two_mul (st : Settings) (v : Int) : log2Rs st (2 * v) = v := by
  rw [log2Rs]
  split_ifs <;> omega

/-- Halving keeps a bound that is even, whatever the rounding (R93). -/
theorem log2Rs_le {b : Int} (h : v ≤ 2 * b) : log2Rs st v ≤ b := by
  rw [log2Rs]
  split_ifs <;> omega

theorem le_log2Rs {b : Int} (h : 2 * b ≤ v) : b ≤ log2Rs st v := by
  rw [log2Rs]
  split_ifs <;> omega

theorem log2Halve_of_lt_two (h : v < 131072) : log2Halve st k v n = (v, n) := by
  cases k with
  | zero => rfl
  | succ k =>
    rw [log2Halve]
    exact if_neg (not_le.mpr h)

theorem log2Halve_of_two_le (h : 131072 ≤ v) : log2Halve st (k + 1) v n = log2Halve st k (log2Rs st v) (n + 1) := by
  rw [log2Halve]
  exact if_pos h

/-- The count of halvings starts where it is told. -/
theorem log2Halve_count (st : Settings) (k : Nat) (v : Int) (n : Nat) :
    log2Halve st k v (n + 1) = ((log2Halve st k v n).1, (log2Halve st k v n).2 + 1) := by
  induction k generalizing v n with
  | zero => rfl
  | succ k ih =>
    by_cases h : 131072 ≤ v
    · rw [log2Halve_of_two_le h, log2Halve_of_two_le h, ih]
    · rw [log2Halve_of_lt_two (not_le.mp h), log2Halve_of_lt_two (not_le.mp h)]

/-- Fuel beyond the halvings a value needs is not used (log 11). -/
theorem log2Halve_succ_fuel (h : v ≤ 65536 * 2 ^ k) : log2Halve st (k + 1) v n = log2Halve st k v n := by
  induction k generalizing v n with
  | zero => rw [log2Halve_of_lt_two (by omega), log2Halve_of_lt_two (by omega)]
  | succ k ih =>
    by_cases htwo : 131072 ≤ v
    · rw [log2Halve_of_two_le htwo, log2Halve_of_two_le htwo]
      exact ih (log2Rs_le (by rw [pow_succ] at h; omega))
    · rw [log2Halve_of_lt_two (not_le.mp htwo), log2Halve_of_lt_two (not_le.mp htwo)]

end Halvings

section Core
variable {st : Settings} {v : Int}

theorem log2Core_of_lt_two (st : Settings) (h : v < 131072) : log2Core st v = log2Fraction st v := by
  rw [log2Core_eq, log2Halve_of_lt_two h]
  simp

/-- One halving is one unit of the logarithm (R93). -/
theorem log2Core_of_two_le (st : Settings) (h : 131072 ≤ v) (hmax : v ≤ 2147483648) :
    log2Core st v = log2Core st (log2Rs st v) + 65536 := by
  have hhalf : log2Rs st v ≤ 65536 * 2 ^ 14 := log2Rs_le (by omega)
  rw [log2Core_eq, log2Core_eq, log2Halve_succ_fuel hhalf, log2Halve_of_two_le h, log2Halve_count]
  push_cast
  ring

/-- The logarithm of a power of two times one unit is exact, by one halving for each doubling (R93 (d)). -/
theorem log2Core_doublings (st : Settings) (j : Nat) (hj : j ≤ 15) : log2Core st (65536 * 2 ^ j) = j * 65536 := by
  induction j with
  | zero => simpa using (log2Core_of_lt_two st (by decide)).trans (log2Fraction_one st)
  | succ j ih =>
    have hlow : (2 : Int) ^ 0 ≤ 2 ^ j := pow_le_pow_right₀ (by decide) (Nat.zero_le j)
    have hhigh : (2 : Int) ^ j ≤ 2 ^ 14 := pow_le_pow_right₀ (by decide) (by omega)
    have hdouble : (65536 : Int) * 2 ^ (j + 1) = 2 * (65536 * 2 ^ j) := by ring
    rw [hdouble, log2Core_of_two_le st (by omega) (by omega), log2Rs_two_mul, ih (by omega)]
    push_cast
    ring

/-- A value of at most `2^j` units has a logarithm of at most `j` units: each halving takes one unit off both (R93). -/
theorem log2Core_bounds (st : Settings) (j : Nat) (hj : j ≤ 15) (hone : 65536 ≤ v) (hv : v ≤ 65536 * 2 ^ j) :
    0 ≤ log2Core st v ∧ log2Core st v ≤ j * 65536 := by
  induction j generalizing v with
  | zero =>
    obtain rfl : v = 65536 := by omega
    simp [log2Core_of_lt_two, log2Fraction_one]
  | succ j ih =>
    by_cases htwo : v < 131072
    · have hfraction := log2Fraction_bounds st v
      rw [log2Core_of_lt_two st htwo]
      omega
    · have hpow : (2 : Int) ^ j ≤ 2 ^ 14 := pow_le_pow_right₀ (by decide) (by omega)
      rw [pow_succ] at hv
      have hhalf := ih (v := log2Rs st v) (by omega) (le_log2Rs (by omega)) (log2Rs_le (by omega))
      rw [log2Core_of_two_le st (by omega) (by omega)]
      omega

end Core

section Operand
variable {st : Settings} {a : Int}

/-- What overflow leaves in `RES` (R70, R93). -/
theorem word_log2Overflow (st : Settings) : word (log2Overflow st) = if st.sat then st.min else 0x80000000#32 := by
  rw [log2Overflow, apply_ite word, word_raw]
  rfl

theorem fxLog2_of_one_le (h : 65536 ≤ a) : fxLog2 st a = log2Core st a := by
  have hone : ¬ a < one := not_lt.mpr h
  rw [fxLog2, if_neg (by omega), if_neg hone]

/-- The reciprocal of an operand below one unit has a magnitude of more than one unit, which fits above two LSB only (R93). -/
theorem divMagnitude_reciprocal (st : Settings) (h0 : 0 < a) (h1 : a < 65536) :
    65536 < divMagnitude st one a ∧ (2147483648 ≤ divMagnitude st one a ↔ a ≤ 2) := by
  obtain ⟨hlow, hhigh⟩ := divMagnitude_bounds st one a
  obtain ⟨d, rfl⟩ := Int.eq_ofNat_of_zero_le h0.le
  have hd : 0 < d := by omega
  have hquot : 65537 ≤ 65536 * 65536 / d := (Nat.le_div_iff_mul_le hd).mpr (by omega)
  refine ⟨hquot.trans hlow, ⟨fun hlarge => ?_, fun htwo => ?_⟩⟩
  · by_contra hthree
    have hthird : 65536 * 65536 / d ≤ 65536 * 65536 / 3 := Nat.div_le_div_left (by omega) (by decide)
    have hfit : divMagnitude st one d ≤ 65536 * 65536 / 3 + 1 := hhigh.trans (Nat.succ_le_succ hthird)
    omega
  · have hhalf : 65536 * 65536 / 2 ≤ 65536 * 65536 / d := Nat.div_le_div_left (by omega) hd
    exact hhalf.trans hlow

theorem fxLog2_of_le_two (h : a ≤ 2) : fxLog2 st a = log2Overflow st := by
  by_cases h0 : a ≤ 0
  · rw [fxLog2, if_pos h0]
  · have hlarge : 2147483648 ≤ divMagnitude st one a := (divMagnitude_reciprocal st (by omega) (by omega)).2.mpr h
    have hone : a < one := by
      rw [one]
      omega
    rw [fxLog2, if_neg h0, if_pos hone]
    exact if_pos hlarge

/-- Below one unit, the negated logarithm of the reciprocal (R93). -/
theorem fxLog2_of_lt_one (h : 2 < a) (h1 : a < 65536) :
    fxLog2 st a = wrap32 (-(log2Core st (divMagnitude st one a))) := by
  have hfit : ¬ 2147483648 ≤ divMagnitude st one a := mt (divMagnitude_reciprocal st (by omega) h1).2.mp (not_le.mpr h)
  have hone : a < one := h1
  rw [fxLog2, if_neg (by omega), if_pos hone]
  exact if_neg hfit

/-- Two to the `k` from one unit up. -/
theorem fxLog2_two_pow_of_one_le (st : Settings) {j : Nat} (hj : j ≤ 14) :
    fxLog2 st (2 ^ (16 + j)) = (j : Int) * 65536 := by
  have hunit : (2 : Int) ^ (16 + j) = 65536 * 2 ^ j := by
    rw [pow_add]
    norm_num
  have hlow : (1 : Int) ≤ 2 ^ j := one_le_pow₀ (by decide)
  rw [hunit, fxLog2_of_one_le (by omega), log2Core_doublings st j (by omega)]

/-- Two to the `k` below one unit: its reciprocal is exact under either rounding. -/
theorem fxLog2_two_pow_of_lt_one (st : Settings) {k : Nat} (h2 : 2 ≤ k) (h16 : k < 16) :
    fxLog2 st (2 ^ k) = ((k : Int) - 16) * 65536 := by
  have hlow : (2 : Int) ^ 2 ≤ 2 ^ k := pow_le_pow_right₀ (by decide) h2
  have hhigh : (2 : Int) ^ k < 2 ^ 16 := pow_lt_pow_right₀ (by decide) h16
  have hmag : divMagnitude st one (2 ^ k) = 2 ^ (32 - k) := by
    apply divMagnitude_of_eq_aligned
    · calc one.natAbs * 65536
        _ = 2 ^ (k + (32 - k)) := by rw [Nat.add_sub_cancel' (by omega)]; rfl
        _ = ((2 : Int) ^ k).natAbs * 2 ^ (32 - k) := by rw [pow_add, Int.natAbs_pow]; rfl
    · positivity
  have hsplit : 32 - k = 16 + (16 - k) := by omega
  have hunit : ((2 ^ (32 - k) : Nat) : Int) = 65536 * 2 ^ (16 - k) := by
    rw [hsplit, pow_add, Nat.cast_mul, Nat.cast_pow, Nat.cast_pow]
    norm_num
  rw [fxLog2_of_lt_one (by omega) (by omega), hmag, hunit, log2Core_doublings st (16 - k) (by omega),
    wrap32_of_range (by omega) (by omega)]
  omega

end Operand

/-- Settles O38: at most two LSB is the overflow case of `fxLog2`. -/
theorem log2OverflowsToMinOrSentinel : Obligations.Log2OverflowsToMinOrSentinel := by
  intro s h
  have ha : raw s.opa ≤ 2 := h
  rw [exec_log2_eq, State.writeRes, fxLog2_of_le_two ha, word_log2Overflow]

/-- Settles O39: the magnitude of the reciprocal in its closed form fits a word, and negation commutes with the wrap. -/
theorem log2BelowOneNegatesTheReciprocal : Obligations.Log2BelowOneNegatesTheReciprocal := by
  intro s m h h1 hm
  have ha : 2 < raw s.opa := h
  have ha1 : raw s.opa < 65536 := h1
  have hnat : raw s.opa = (s.opa.toNat : Int) := raw_eq_toNat (by omega)
  have hmag : divMagnitude s.active one (raw s.opa) = m := by
    rw [divMagnitude_eq _ _ (by omega), hnat, hm]
    rfl
  obtain ⟨hone, hfit⟩ := divMagnitude_reciprocal s.active (by omega) ha1
  rw [hmag] at hone hfit
  rw [exec_log2_eq, State.writeRes, fxLog2_of_lt_one ha ha1, hmag, wrap32, word_raw, word_neg, result_log2,
    raw_ofNat (by omega), fxLog2_of_one_le (by omega)]

/-- Settles O40: the halved operand is still one unit or more, and one halving is one unit of `log2core`. -/
theorem log2HalvingAddsOne : Obligations.Log2HalvingAddsOne := by
  intro s h
  have ha : 131072 ≤ raw s.opa := h
  have hmax : raw s.opa ≤ 2147483647 := (raw_bounds s.opa).2
  have hnat : raw s.opa = (s.opa.toNat : Int) := raw_eq_toNat (by omega)
  have hhalf : ((s.opa.toNat / 2 + (if s.active.rnd then s.opa.toNat % 2 else 0) : Nat) : Int)
      = log2Rs s.active (raw s.opa) := by
    rw [hnat, log2Rs]
    push_cast
    rfl
  have hlow : 65536 ≤ log2Rs s.active (raw s.opa) := le_log2Rs (by omega)
  have hhigh : log2Rs s.active (raw s.opa) ≤ 1073741824 := log2Rs_le (by omega)
  rw [exec_log2_eq, State.writeRes, fxLog2_of_one_le (by omega), log2Core_of_two_le _ ha (by omega), word_add, result_log2,
    raw_ofNat (by omega), hhalf, fxLog2_of_one_le hlow]
  rfl

/-- Settles O41: no halving takes place, and `log2core` is its fraction. -/
theorem log2FractionBits : Obligations.Log2FractionBits := by
  intro s x hx h1 h2
  have ha : raw s.opa = x := hx.symm
  rw [exec_log2_eq, State.writeRes, ha, fxLog2_of_one_le h1, log2Core_of_lt_two _ h2]
  rfl

/-- Settles O42: from one unit up the operand is a number of doublings of it; below, its reciprocal is, exactly. -/
theorem log2OfPowersOfTwoIsExact : Obligations.Log2OfPowersOfTwoIsExact := by
  intro s k h2 h30 hopa
  have ha : raw s.opa = 2 ^ k := by
    have hpow : 2 ^ k ≤ 2 ^ 30 := Nat.pow_le_pow_right (by decide) h30
    rw [hopa, raw_ofNat (by omega)]
    norm_cast
  by_cases h16 : k < 16
  · rw [exec_log2_eq, State.writeRes, ha, fxLog2_two_pow_of_lt_one s.active h2 h16]
    rfl
  · obtain ⟨j, rfl⟩ := Nat.exists_eq_add_of_le (not_lt.mp h16)
    have hdiff : (((16 + j : Nat) : Int) - 16) = j := by omega
    rw [exec_log2_eq, State.writeRes, ha, fxLog2_two_pow_of_one_le s.active (by omega), hdiff]
    rfl

/-- Settles O43: a word is at most `2^15` units. -/
theorem log2OfOneOrMoreIsBounded : Obligations.Log2OfOneOrMoreIsBounded := by
  intro s h
  have ha : 65536 ≤ raw s.opa := h
  have hmax : raw s.opa ≤ 2147483647 := (raw_bounds s.opa).2
  obtain ⟨hlow, hhigh⟩ := log2Core_bounds s.active 15 le_rfl ha (by omega)
  obtain ⟨r, hr⟩ := Int.eq_ofNat_of_zero_le hlow
  refine ⟨r, ?_, by omega⟩
  rw [exec_log2_eq, State.writeRes, fxLog2_of_one_le ha, hr, word_natCast]

end Sys2Proof.Machine
end

section
/-! PROOFS. EXP, LN, POW, PINIT and PSTEP (`44_exp_ln_pow_poly.md`, R100 to R108): each bounded loop skips to the first index at
which its exit test holds, and the commands POW builds on keep their value in a word. -/

namespace Sys2Proof.Machine

section Commands

theorem exec_exp_eq (s : State) : exec .exp s = .next (s.writeRes (fxExp s.active (raw s.opa))) := rfl

theorem exec_ln_eq (s : State) : exec .ln s = .next (s.writeRes (fxLn s.active (raw s.opa))) := rfl

theorem exec_pow_eq (s : State) : exec .pow s = .next (s.writeRes (fxPow s.active (raw s.opa) (raw s.opb))) := rfl

theorem result_abs (s : State) (a b : Word) : result .abs s a b = word (fxAbs (raw a)) :=
  result_of_exec (exec_abs_eq _)

theorem result_exp (s : State) (a b : Word) : result .exp s a b = word (fxExp s.active (raw a)) :=
  result_of_exec (exec_exp_eq _)

theorem result_ln (s : State) (a b : Word) : result .ln s a b = word (fxLn s.active (raw a)) :=
  result_of_exec (exec_ln_eq _)

theorem result_pow (s : State) (a b : Word) : result .pow s a b = word (fxPow s.active (raw a) (raw b)) :=
  result_of_exec (exec_pow_eq _)

end Commands

section BoundedLoop
variable {α : Type} {run : Nat → Nat → α} {out : Nat → α} {exits : Nat → Prop} {n : Nat}

/-- A loop of at most `k` passes has a first index at which its exit test holds, or uses all its passes. -/
theorem exists_first_exit (exits : Nat → Prop) (k : Nat) :
    ∃ n, n ≤ k ∧ (∀ j, j < n → ¬ exits j) ∧ (n = k ∨ exits n) := by
  classical
  have hend : ∃ n, n = k ∨ exits n := ⟨k, .inl rfl⟩
  exact ⟨Nat.find hend, Nat.find_min' hend (.inl rfl), fun j hj hexit => Nat.find_min hend hj (.inr hexit),
    Nat.find_spec hend⟩

/-- A loop passes every index at which its exit test fails; `run k j` is what it gives from index `j` with `k` passes. -/
theorem loop_skip (hpass : ∀ k j, ¬ exits j → run (k + 1) j = run k (j + 1)) (k : Nat)
    (hgo : ∀ j, j < n → ¬ exits j) : run (n + k) 0 = run k n := by
  induction n generalizing k with
  | zero => rw [Nat.zero_add]
  | succ n ih =>
    rw [Nat.add_right_comm, Nat.add_assoc, ih (k + 1) (fun j hj => hgo j (by omega)), hpass k n (hgo n (by omega))]

/-- What a loop of at most `k` passes gives is its value at the first index at which its exit test holds, or at `k`. -/
theorem loop_eq_first_exit (hpass : ∀ k j, ¬ exits j → run (k + 1) j = run k (j + 1))
    (hexit : ∀ k j, exits j → run (k + 1) j = out j) (hfuel : ∀ j, run 0 j = out j) (k : Nat) :
    ∃ n, n ≤ k ∧ (∀ j, j < n → ¬ exits j) ∧ (n = k ∨ exits n) ∧ run k 0 = out n := by
  obtain ⟨n, hn, hgo, hend⟩ := exists_first_exit exits k
  obtain ⟨fuel, rfl⟩ := Nat.exists_eq_add_of_le hn
  refine ⟨n, hn, hgo, hend, ?_⟩
  rw [loop_skip hpass fuel hgo]
  cases fuel with
  | zero => exact hfuel n
  | succ fuel => exact hexit fuel n (hend.resolve_left (by omega))

end BoundedLoop

section Fits
variable {v : Int}

theorem wrap32_raw (w : Word) : wrap32 (raw w) = raw w := by rw [wrap32, word_raw]

theorem wrap32_wrap32 (v : Int) : wrap32 (wrap32 v) = wrap32 v := wrap32_raw (word v)

theorem word_wrap32 (v : Int) : word (wrap32 v) = word v := word_raw (word v)

theorem wrap32_sentinel : wrap32 sentinel = sentinel := by decide

/-- A value that fits a word leaves the pattern `SENTINEL` exactly where it is the sentinel (R3). -/
theorem word_eq_sentinelWord_iff (hv : wrap32 v = v) : word v = 0x80000000#32 ↔ v = sentinel := by
  have hsentinel : raw 0x80000000#32 = sentinel := by decide
  rw [← raw_eq_iff, raw_word, hv, hsentinel]

theorem wrap32_fxAdd (a b : Int) : wrap32 (fxAdd a b) = fxAdd a b := by
  simp only [fxAdd]
  split_ifs
  · exact wrap32_sentinel
  · exact wrap32_raw _

theorem wrap32_divOverflow (st : Settings) (neg : Bool) : wrap32 (divOverflow st neg) = divOverflow st neg := by
  rw [divOverflow]
  split_ifs
  · exact wrap32_raw st.min
  · exact wrap32_raw st.max
  · exact wrap32_sentinel

theorem wrap32_fxDiv (st : Settings) (a b : Int) : wrap32 (fxDiv st a b) = fxDiv st a b := by
  rw [fxDiv, divFinish]
  split_ifs
  · exact wrap32_raw st.min
  · exact wrap32_divOverflow st _
  · exact wrap32_of_range (by omega) (by omega)
  · exact wrap32_of_range (by omega) (by omega)

theorem wrap32_fxAbs_raw (w : Word) : wrap32 (fxAbs (raw w)) = fxAbs (raw w) := by
  rw [fxAbs]
  split_ifs
  · exact wrap32_raw w
  · exact wrap32_wrap32 _

theorem wrap32_fxLn (st : Settings) (x : Int) : wrap32 (fxLn st x) = fxLn st x := by
  simp only [fxLn]
  split_ifs
  · exact wrap32_sentinel
  · exact wrap32_wrap32 _

end Fits

section ExpSeries

/-- One pass of R100's loop computes the term and the sum of its index, then tests the three exits. -/
theorem expSeries_succ (st : Settings) (ax : Int) (k n : Nat) :
    expSeries st ax (k + 1) (n + 2) (expTerm st ax (n + 1)) (expSum st ax (n + 1)) =
      if ExpOverflowAt st ax (n + 2) then none
      else if ExpStopAt st ax (n + 2) then some (expSum st ax (n + 2))
      else expSeries st ax k (n + 3) (expTerm st ax (n + 2)) (expSum st ax (n + 2)) := by
  rw [ite_or]
  rfl

/-- The last index of R100's series: the first at which the sentinel exit or the early exit holds, or 29. -/
def ExpLastIndex (st : Settings) (ax : Int) (n : Nat) : Prop :=
  2 ≤ n ∧ n ≤ 29 ∧ (∀ i, 2 ≤ i → i < n → ¬ ExpOverflowAt st ax i ∧ ¬ ExpStopAt st ax i) ∧
    (n = 29 ∨ ExpOverflowAt st ax n ∨ ExpStopAt st ax n)

/-- The series of R100 is the sum up to its last index, unless that index is a sentinel exit. -/
theorem expMagnitude_lastIndex (st : Settings) (ax : Int) : ∃ n, ExpLastIndex st ax n ∧
    expMagnitude st ax = if ExpOverflowAt st ax n then none else some (expSum st ax n) := by
  have hfirst := loop_eq_first_exit
    (run := fun k j => expSeries st ax (k + 1) (j + 2) (expTerm st ax (j + 1)) (expSum st ax (j + 1)))
    (out := fun j => if ExpOverflowAt st ax (j + 2) then none else some (expSum st ax (j + 2)))
    (exits := fun j => ExpOverflowAt st ax (j + 2) ∨ ExpStopAt st ax (j + 2)) ?pass ?exit ?fuel 27
  case pass =>
    intro k j hgo
    obtain ⟨hover, hstop⟩ := not_or.mp hgo
    rw [expSeries_succ, if_neg hover, if_neg hstop]
  case exit =>
    intro k j hexit
    by_cases hover : ExpOverflowAt st ax (j + 2)
    · rw [expSeries_succ, if_pos hover, if_pos hover]
    · rw [expSeries_succ, if_neg hover, if_neg hover, if_pos (hexit.resolve_left hover)]
  case fuel =>
    intro j
    rw [expSeries_succ]
    exact congrArg _ (ite_self _)
  obtain ⟨n, hn, hgo, hend, hloop⟩ := hfirst
  refine ⟨n + 2, ⟨by omega, by omega, fun i hi hin => ?_, hend.imp_left (by omega)⟩, hloop⟩
  obtain ⟨j, rfl⟩ := Nat.exists_eq_add_of_le' hi
  exact not_or.mp (hgo j (by omega))

end ExpSeries

section Exp
variable {st : Settings} {x : Int}

theorem fxExp_zero (st : Settings) : fxExp st 0 = one := rfl

theorem fxExp_one (st : Settings) : fxExp st one = constE := rfl

theorem fxExp_of_large (h : 681391 ≤ x) : fxExp st x = raw st.max := by
  rw [fxExp, if_neg (by omega), if_neg (by rw [one]; omega)]
  exact if_pos h

theorem fxExp_of_small (h : x ≤ -681391) : fxExp st x = 0 := by
  rw [fxExp, if_neg (by omega), if_neg (by rw [one]; omega), if_neg (by rw [expArgMax]; omega)]
  exact if_pos h

/-- Between the clamps and off the shortcuts, EXP is the series at `|x|`, and its reciprocal for a negative operand (R100). -/
theorem fxExp_of_series (h0 : x ≠ 0) (h1 : x ≠ 65536) (hlow : -681391 < x) (hhigh : x < 681391) :
    ∃ n, ExpLastIndex st x.natAbs n ∧
      fxExp st x =
        if ExpOverflowAt st x.natAbs n then sentinel
        else if x < 0 then fxDiv st one (expSum st x.natAbs n) else expSum st x.natAbs n := by
  have hone : ¬ x = one := h1
  have hmax : ¬ expArgMax ≤ x := not_le.mpr hhigh
  have hmin : ¬ x ≤ -expArgMax := not_le.mpr hlow
  obtain ⟨n, hlast, hseries⟩ := expMagnitude_lastIndex st x.natAbs
  refine ⟨n, hlast, ?_⟩
  rw [fxExp, if_neg h0, if_neg hone, if_neg hmax, if_neg hmin, hseries]
  by_cases hover : ExpOverflowAt st x.natAbs n
  · rw [if_pos hover, if_pos hover]
  · rw [if_neg hover, if_neg hover]

theorem wrap32_expSum (st : Settings) (ax : Int) (n : Nat) : wrap32 (expSum st ax n) = expSum st ax n := by
  match n with
  | 0 => exact wrap32_of_range (v := 65536) (by decide) (by decide)
  | 1 => exact wrap32_fxAdd _ _
  | n + 2 => exact wrap32_fxAdd _ _

theorem wrap32_fxExp (st : Settings) (x : Int) : wrap32 (fxExp st x) = fxExp st x := by
  by_cases h0 : x = 0
  · rw [h0, fxExp_zero]
    decide
  by_cases h1 : x = one
  · rw [h1, fxExp_one]
    decide
  by_cases hhigh : 681391 ≤ x
  · rw [fxExp_of_large hhigh]
    exact wrap32_raw st.max
  by_cases hlow : x ≤ -681391
  · rw [fxExp_of_small hlow]
    decide
  obtain ⟨n, -, hexp⟩ := fxExp_of_series (st := st) h0 h1 (not_le.mp hlow) (not_le.mp hhigh)
  rw [hexp]
  split_ifs
  · exact wrap32_sentinel
  · exact wrap32_fxDiv st _ _
  · exact wrap32_expSum st _ n

end Exp

/-- Settles O44: the branches of R100, the last of them at the last index of its series. -/
theorem expFollowsTheSeries : Obligations.ExpFollowsTheSeries := by
  intro s x ax hx hax
  have hopa : raw s.opa = x := hx.symm
  subst hax
  rw [exec_exp_eq, hopa]
  refine ⟨?_, ?_, ?_, ?_, ?_⟩
  · rintro rfl
    rw [fxExp_zero]
    rfl
  · rintro rfl
    rfl
  · intro hhigh
    rw [fxExp_of_large hhigh, State.writeRes, word_raw]
  · intro hlow
    rw [fxExp_of_small hlow]
    rfl
  · intro h0 h1 hlow hhigh
    obtain ⟨n, ⟨htwo, hlast, hgo, hexit⟩, hexp⟩ := fxExp_of_series (st := s.active) h0 h1 hlow hhigh
    refine ⟨n, htwo, hlast, hgo, hexit, fun hover => ?_, fun hover => ?_⟩
    · rw [hexp, if_pos hover]
      rfl
    · rw [hexp, if_neg hover]
      rfl

section Ln
variable {st : Settings} {x y : Int} {m : Nat}

theorem lnScaleDown_succ (st : Settings) (fuel : Nat) (x k : Int) :
    lnScaleDown st (fuel + 1) x k =
      if 6553600 < x then lnScaleDown st fuel (fxDiv st x constE4) (k + 4) else (x, k) := rfl

theorem lnScaleUp_succ (st : Settings) (fuel : Nat) (x k : Int) :
    lnScaleUp st (fuel + 1) x k =
      if x < 65536 then lnScaleUp st fuel (fxMul st x constE4) (k - 4) else (x, k) := rfl

/-- At most 2 divisions, each made exactly while needed, bring a positive word to at most 100.0 (R103). -/
theorem lnScaleDown_eq (st : Settings) (h0 : 0 < x) (hmax : x ≤ 2147483647) (k : Int) :
    ∃ m : Nat, m ≤ 2 ∧ (∀ j, j < m → 6553600 < lnDown st x j) ∧ lnDown st x m ≤ 6553600 ∧
      lnScaleDown st 2 x k = (lnDown st x m, k + 4 * m) := by
  have hfirst := loop_eq_first_exit
    (run := fun fuel j => lnScaleDown st fuel (lnDown st x j) (k + 4 * (j : Int)))
    (out := fun j => (lnDown st x j, k + 4 * (j : Int)))
    (exits := fun j => ¬ 6553600 < lnDown st x j) ?pass ?exit (fun _ => rfl) 2
  case pass =>
    intro fuel j hgo
    rw [lnScaleDown_succ, if_pos (not_not.mp hgo), Nat.cast_succ, mul_add, mul_one, ← add_assoc]
    rfl
  case exit =>
    intro fuel j hexit
    rw [lnScaleDown_succ, if_neg hexit]
  obtain ⟨m, hm, hgo, -, hloop⟩ := hfirst
  rw [Nat.cast_zero, mul_zero, add_zero, lnDown] at hloop
  have hbound := lnScaleDown_fuel st h0 hmax k
  rw [hloop] at hbound
  exact ⟨m, hm, fun j hj => not_not.mp (hgo j hj), hbound, hloop⟩

/-- At most 3 multiplications, each made exactly while needed, bring a positive value to at least 1.0 (R103). -/
theorem lnScaleUp_eq (st : Settings) (h0 : 0 < x) (k : Int) :
    ∃ p : Nat, p ≤ 3 ∧ (∀ j, j < p → lnUp st x j < 65536) ∧ 65536 ≤ lnUp st x p ∧
      lnScaleUp st 3 x k = (lnUp st x p, k - 4 * p) := by
  have hfirst := loop_eq_first_exit
    (run := fun fuel j => lnScaleUp st fuel (lnUp st x j) (k - 4 * (j : Int)))
    (out := fun j => (lnUp st x j, k - 4 * (j : Int)))
    (exits := fun j => ¬ lnUp st x j < 65536) ?pass ?exit (fun _ => rfl) 3
  case pass =>
    intro fuel j hgo
    rw [lnScaleUp_succ, if_pos (not_not.mp hgo), Nat.cast_succ, mul_add, mul_one, ← sub_sub]
    rfl
  case exit =>
    intro fuel j hexit
    rw [lnScaleUp_succ, if_neg hexit]
  obtain ⟨p, hp, hgo, -, hloop⟩ := hfirst
  rw [Nat.cast_zero, mul_zero, sub_zero, lnUp] at hloop
  have hbound := lnScaleUp_fuel st h0 k
  rw [hloop] at hbound
  exact ⟨p, hp, fun j hj => not_not.mp (hgo j hj), hbound, hloop⟩

/-- Dividing a value above 100.0 keeps it above zero and in its word. -/
theorem lnDown_bounds (h0 : 0 < x) (hmax : x ≤ 2147483647) (hgo : ∀ j, j < m → 6553600 < lnDown st x j) :
    0 < lnDown st x m ∧ lnDown st x m ≤ 2147483647 := by
  induction m with
  | zero => exact ⟨h0, hmax⟩
  | succ m ih =>
    obtain ⟨hpos, hfit⟩ := ih (fun j hj => hgo j (by omega))
    have hlarge := hgo m (by omega)
    have hdiv := fxDiv_constE4 st hpos hfit
    have hdown : lnDown st x (m + 1) = fxDiv st (lnDown st x m) constE4 := rfl
    rw [hdown]
    omega

/-- Multiplying a value below 1.0 keeps it above zero and at most 100.0. -/
theorem lnUp_bounds (h0 : 0 < x) (hmax : x ≤ 6553600) (hgo : ∀ j, j < m → lnUp st x j < 65536) :
    0 < lnUp st x m ∧ lnUp st x m ≤ 6553600 := by
  induction m with
  | zero => exact ⟨h0, hmax⟩
  | succ m ih =>
    obtain ⟨hpos, -⟩ := ih (fun j hj => hgo j (by omega))
    have hsmall := hgo m (by omega)
    have hmul := fxMul_constE4 st hpos hsmall
    have hup : lnUp st x (m + 1) = fxMul st (lnUp st x m) constE4 := rfl
    rw [hup]
    omega

theorem lnDelta_eq_lnCorrection (st : Settings) (y guess : Int) : lnDelta st y guess = lnCorrection st y guess := by
  have hclamp (d : Int) : (if three < d then three else d) = min d 196608 := by
    rw [three]
    split_ifs <;> omega
  exact hclamp _

/-- One refinement of R103 moves to the next guess, and stops there if the correction was at most one LSB. -/
theorem lnRefine_succ (st : Settings) (y : Int) (fuel j : Nat) :
    lnRefine st y (fuel + 1) (lnGuess st y j) =
      if (lnCorrection st y (lnGuess st y j)).natAbs ≤ 1 then lnGuess st y (j + 1)
      else lnRefine st y fuel (lnGuess st y (j + 1)) := by
  have hlsb (d : Int) : (-1 ≤ d ∧ d ≤ 1) ↔ d.natAbs ≤ 1 := by omega
  simp only [lnRefine, lnDelta_eq_lnCorrection, hlsb]
  rfl

/-- LN refines from 1 to 10 times, up to the first correction of at most one LSB (R103). -/
theorem lnRefine_eq (st : Settings) (y : Int) :
    ∃ n, 1 ≤ n ∧ n ≤ 10 ∧ (∀ j, j + 1 < n → 1 < (lnCorrection st y (lnGuess st y j)).natAbs) ∧
      (n < 10 → (lnCorrection st y (lnGuess st y (n - 1))).natAbs ≤ 1) ∧
      lnRefine st y lnIter two = lnGuess st y n := by
  have hfirst := loop_eq_first_exit
    (run := fun fuel j => lnRefine st y (fuel + 1) (lnGuess st y j)) (out := fun j => lnGuess st y (j + 1))
    (exits := fun j => (lnCorrection st y (lnGuess st y j)).natAbs ≤ 1) ?pass ?exit ?fuel 9
  case pass =>
    intro fuel j hgo
    rw [lnRefine_succ, if_neg hgo]
  case exit =>
    intro fuel j hexit
    rw [lnRefine_succ, if_pos hexit]
  case fuel =>
    intro j
    rw [lnRefine_succ]
    exact ite_self _
  obtain ⟨n, hn, hgo, hend, hloop⟩ := hfirst
  exact ⟨n + 1, by omega, by omega, fun j hj => not_le.mp (hgo j (by omega)),
    fun hlt => hend.resolve_left (by omega), hloop⟩

theorem fxLn_of_nonpos (h : x ≤ 0) : fxLn st x = sentinel := if_pos h

/-- LN of a positive operand: the refined guess of the reduced operand, plus the scaling (R103). -/
theorem fxLn_of_pos {k : Int} (h : 0 < x) (hreduce : lnReduce st x = (y, k)) :
    fxLn st x = wrap32 (lnRefine st y lnIter two + k * 65536) := by
  rw [fxLn, if_neg (not_le.mpr h), hreduce]

end Ln

/-- Settles O45: the two scaling loops, then the refinement, each up to its own exit test. -/
theorem lnRefinesTheReducedOperand : Obligations.LnRefinesTheReducedOperand := by
  intro s x hx
  have hopa : raw s.opa = x := hx.symm
  rw [exec_ln_eq, hopa]
  refine ⟨fun hneg => ?_, fun hpos => ?_⟩
  · rw [fxLn_of_nonpos hneg]
    rfl
  have hmax : x ≤ 2147483647 := hopa ▸ (raw_bounds s.opa).2
  obtain ⟨m, hm, hdownGo, hdown, hdownEq⟩ := lnScaleDown_eq s.active hpos hmax 0
  rw [zero_add] at hdownEq
  have hdownPos := (lnDown_bounds hpos hmax hdownGo).1
  obtain ⟨p, hp, hupGo, hup, hupEq⟩ := lnScaleUp_eq s.active hdownPos (4 * m)
  obtain ⟨n, hone, hten, hgo, hexit, hrefine⟩ := lnRefine_eq s.active (lnUp s.active (lnDown s.active x m) p)
  refine ⟨m, p, n, _, hm, hdownGo, hdown, hp, hupGo, rfl, hup, (lnUp_bounds hdownPos hdown hupGo).2, hone, hten, hgo,
    hexit, ?_⟩
  have hreduce : lnReduce s.active x = (lnUp s.active (lnDown s.active x m) p, 4 * (m : Int) - 4 * (p : Int)) := by
    rw [lnReduce, hdownEq]
    exact hupEq
  rw [fxLn_of_pos hpos hreduce, hrefine, State.writeRes, word_wrap32]
  rfl

section Pow
variable {st : Settings} {x y r : Int} {n : Nat}

/-- One multiplication more than `n` multiplies the result of `n`, unless that is the sentinel already (R105). -/
theorem powLoop_succ (hr : r ≠ sentinel) :
    powLoop st x (n + 1) r =
      if powLoop st x n r = sentinel then sentinel else fxMul st x (powLoop st x n r) := by
  have hstep (n : Nat) (r : Int) : powLoop st x (n + 1) r =
      if fxMul st x r = sentinel then fxMul st x r else powLoop st x n (fxMul st x r) := rfl
  induction n generalizing r with
  | zero =>
    rw [hstep, powLoop, powLoop, if_neg hr]
    exact ite_self _
  | succ n ih =>
    rw [hstep (n + 1) r, hstep n r]
    by_cases hq : fxMul st x r = sentinel
    · rw [if_pos hq, if_pos hq, if_pos hq, hq]
    · rw [if_neg hq, if_neg hq, ih hq]

theorem wrap32_powLoop (hr : wrap32 r = r) : wrap32 (powLoop st x n r) = powLoop st x n r := by
  induction n generalizing r with
  | zero => exact hr
  | succ n ih =>
    simp only [powLoop]
    split_ifs
    · exact wrap32_fxMul st x r
    · exact ih (wrap32_fxMul st x r)

/-- A whole non-negative exponent takes the integer path (R105). -/
theorem fxPow_natCast (st : Settings) (x : Int) (n : Nat) :
    fxPow st x ((n * 65536 : Nat) : Int) = powLoop st x n one := by
  have hcount : (((n * 65536 : Nat) : Int) / 65536).toNat = n := by omega
  rw [fxPow, if_pos (by omega), hcount]

/-- A negative exponent, or one with fraction bits, takes the general path (R105). -/
theorem fxPow_general (h : y < 0 ∨ y % 65536 ≠ 0) : fxPow st x y = powGeneral st x y :=
  if_neg (by omega)

/-- The general path of R105 as EXP of MUL of LN, one test for the three sentinel exits. -/
theorem powGeneral_eq {l t e : Int} (hl : l = fxLn st (fxAbs x)) (ht : t = fxMul st y l) (he : e = fxExp st t) :
    powGeneral st x y =
      if l = sentinel ∨ t = sentinel ∨ e = sentinel then sentinel else if x < 0 then wrap32 (-e) else e := by
  subst hl ht he
  rw [ite_or, ite_or]
  rfl

/-- What POW leaves in `RES` for an exponent of `n` units that fits a word (R105). -/
theorem result_pow_natCast (s : State) (a : Word) (hn : n ≤ 32767) :
    result .pow s a (BitVec.ofNat 32 (n * 65536)) = word (powLoop s.active (raw a) n one) := by
  rw [result_pow, raw_ofNat (by omega), fxPow_natCast]

end Pow

/-- Settles O46: by one multiplication more in the integer path. -/
theorem powMultipliesForIntegerExponents : Obligations.PowMultipliesForIntegerExponents := by
  intro s
  refine ⟨fun hopb => ?_, fun n hn hopb => ?_⟩
  · have hone : fxPow s.active (raw s.opa) (raw s.opb) = one := by rw [hopb]; rfl
    rw [exec_pow_eq, hone]
    rfl
  have hfit : wrap32 (powLoop s.active (raw s.opa) n one) = powLoop s.active (raw s.opa) n one :=
    wrap32_powLoop (by decide)
  have hpow : fxPow s.active (raw s.opa) (raw s.opb) = powLoop s.active (raw s.opa) (n + 1) one := by
    rw [hopb, raw_ofNat (by omega), fxPow_natCast]
  rw [result_pow_natCast s s.opa hn.le, result_mul, raw_word, hfit, exec_pow_eq, hpow, powLoop_succ (by decide),
    State.writeRes, apply_ite word]
  simp only [word_eq_sentinelWord_iff hfit]
  rfl

/-- Settles O47: LN, MUL and EXP keep their values in words, so the tests on patterns are the tests on values. -/
theorem powComposesExpMulLnOtherwise : Obligations.PowComposesExpMulLnOtherwise := by
  intro s l t e hopb hl ht he
  have hfraction : raw s.opb % 65536 = (s.opb.toNat : Int) % 65536 := by
    rw [raw, BitVec.toInt_eq_toNat_cond]
    split_ifs <;> omega
  have hgeneral : raw s.opb < 0 ∨ raw s.opb % 65536 ≠ 0 := hopb.imp_right (by omega)
  have hlraw : raw l = fxLn s.active (fxAbs (raw s.opa)) := by
    rw [hl, result_ln, result_abs, raw_word, raw_word, wrap32_fxAbs_raw, wrap32_fxLn]
  have htraw : raw t = fxMul s.active (raw s.opb) (raw l) := by rw [ht, result_mul, raw_word, wrap32_fxMul]
  have heraw : raw e = fxExp s.active (raw t) := by rw [he, result_exp, raw_word, wrap32_fxExp]
  have hpattern (w : Word) : raw w = sentinel ↔ w = 0x80000000#32 := by
    rw [← word_eq_sentinelWord_iff (wrap32_raw w), word_raw]
  rw [exec_pow_eq, fxPow_general hgeneral, powGeneral_eq hlraw htraw heraw, State.writeRes, apply_ite word,
    apply_ite word, word_wrap32, word_neg, word_raw]
  simp only [hpattern]
  rfl

/-- Settles O48: PINIT is an equation of `exec`, and PSTEP is one step of the recurrence of R109, then `RES <- ACC`. -/
theorem pinitAndPstepFollowTheirRules : Obligations.PinitAndPstepFollowTheirRules := by
  intro s t ht
  refine ⟨exec_pinit_eq s, ?_⟩
  rw [exec_pstep_eq, pstepAcc_eq_hornerStep, hornerStep, ← ht, sentinelWord]
  by_cases hstuck : s.pstk = true
  · rw [if_pos hstuck, if_pos hstuck]
  rw [if_neg hstuck, if_neg hstuck]
  by_cases hproduct : t = 0x80000000#32
  · rw [if_pos hproduct, if_pos hproduct]
  · rw [if_neg hproduct, if_neg hproduct, ← Bool.eq_false_of_not_eq_true hstuck]

end Sys2Proof.Machine
end

section
/-! PROOFS. The trigonometric family (`45_trig.md`): the wrap of R115 and R116 and the loop of R120 both give the one angle of the
half-open turn, the series of R117 on words, and the compositions of R118 and R119. -/

namespace Sys2Proof.Machine

section Wraps

/-- `r` is `x` brought to the half-open turn `-h < r ≤ h` by whole turns of `2 * h` (R115, R116). -/
def WrappedAngle (h x r : Int) : Prop := -h < r ∧ r ≤ h ∧ 2 * h ∣ r - x

variable {h full x r r' : Int}

/-- The half-open turn holds one integer of each residue, so at most one wrapped angle (R115). -/
theorem WrappedAngle.unique (hr : WrappedAngle h x r) (hr' : WrappedAngle h x r') : r = r' := by
  obtain ⟨hlow, hhigh, hturns⟩ := hr
  obtain ⟨hlow', hhigh', hturns'⟩ := hr'
  have hdvd : 2 * h ∣ r - r' := by simpa using dvd_sub hturns hturns'
  have hlt : |r - r'| < 2 * h := abs_lt.mpr ⟨by omega, by omega⟩
  exact sub_eq_zero.mp (Int.eq_zero_of_abs_lt_dvd hdvd hlt)

/-- The single-step wrap: the remainder lies in `0 .. full - 1`, and drops a whole number of turns. -/
theorem wrapAngle_wrapped (hfull : full = 2 * h) (hpos : 0 < h) (x : Int) : WrappedAngle h x (wrapAngle h full x) := by
  subst hfull
  have hnonneg : 0 ≤ (x + h - 1) % (2 * h) := Int.emod_nonneg _ (by omega)
  have hlt : (x + h - 1) % (2 * h) < 2 * h := Int.emod_lt_of_pos _ (by omega)
  refine ⟨by rw [wrapAngle]; omega, by rw [wrapAngle]; omega, ?_⟩
  have hdiff : wrapAngle h (2 * h) x - x = (x + h - 1) % (2 * h) - (x + h - 1) := by rw [wrapAngle]; ring
  rw [hdiff]
  exact Int.dvd_emod_sub_self

theorem fxWrappi_wrapped (x : Int) : WrappedAngle pi x (fxWrappi x) := wrapAngle_wrapped (by decide) (by decide) x

theorem fxWrap180_wrapped (x : Int) : WrappedAngle d180 x (fxWrap180 x) := wrapAngle_wrapped (by decide) (by decide) x

/-- A wrapped angle in radians fits a word. -/
theorem wrap32_fxWrappi (x : Int) : wrap32 (fxWrappi x) = fxWrappi x := by
  obtain ⟨hlow, hhigh, -⟩ := fxWrappi_wrapped x
  rw [pi] at hlow hhigh
  exact wrap32_of_range (by omega) (by omega)

end Wraps

section WrapLoop
variable {h full x b : Int}

theorem dvd_wrapDown_sub (h full : Int) (k : Nat) (x : Int) : full ∣ wrapDown h full k x - x := by
  induction k generalizing x with
  | zero => simp [wrapDown]
  | succ k ih =>
    rw [wrapDown]
    split_ifs
    · have hstep : wrapDown h full k (x - full) - x = (wrapDown h full k (x - full) - (x - full)) - full := by ring
      rw [hstep]
      exact dvd_sub_self_right.mpr (ih (x - full))
    · simp

theorem dvd_wrapUp_sub (h full : Int) (k : Nat) (x : Int) : full ∣ wrapUp h full k x - x := by
  induction k generalizing x with
  | zero => simp [wrapUp]
  | succ k ih =>
    rw [wrapUp]
    split_ifs
    · have hstep : wrapUp h full k (x + full) - x = (wrapUp h full k (x + full) - (x + full)) + full := by ring
      rw [hstep]
      exact dvd_add_self_right.mpr (ih (x + full))
    · simp

/-- A pass of the first half starts above `h`, so it does not go below `h - full`. -/
theorem le_wrapDown (k : Nat) (hb : b ≤ h - full) (hx : b ≤ x) : b ≤ wrapDown h full k x := by
  induction k generalizing x with
  | zero => exact hx
  | succ k ih =>
    rw [wrapDown]
    split_ifs
    · exact ih (by omega)
    · exact hx

/-- A pass of the second half starts at or below `-h`, so it does not go above `full - h`. -/
theorem wrapUp_le (k : Nat) (hb : full - h ≤ b) (hx : x ≤ b) : wrapUp h full k x ≤ b := by
  induction k generalizing x with
  | zero => exact hx
  | succ k ih =>
    rw [wrapUp]
    split_ifs
    · exact ih (by omega)
    · exact hx

/-- Both halves of R120's loop end because their own test fails, when `x` is within 5215 turns of the target range. -/
theorem wrapLoop_wrapped (hfull : full = 2 * h) (hpos : 0 < h) (hlow : -h - 5215 * full < x)
    (hhigh : x ≤ h + 5215 * full) : WrappedAngle h x (wrapLoop h full x) := by
  have hdownLow : -h - 5215 * full + 1 ≤ wrapDown h full 5215 x := le_wrapDown 5215 (by omega) (by omega)
  have hdownHigh : wrapDown h full 5215 x ≤ h := wrapDown_exits h full 5215 x hhigh
  have hturns : full ∣ wrapLoop h full x - x := by
    have hsum := dvd_add (dvd_wrapUp_sub h full 5215 (wrapDown h full 5215 x)) (dvd_wrapDown_sub h full 5215 x)
    rwa [sub_add_sub_cancel] at hsum
  exact ⟨wrapUp_exits h full 5215 _ (by omega), wrapUp_le 5215 (by omega) hdownHigh, hfull ▸ hturns⟩

end WrapLoop

section Commands

theorem exec_wrappi_eq (s : State) : exec .wrappi s = .next (s.writeRes (fxWrappi (raw s.opa))) := rfl

theorem exec_wrap180_eq (s : State) : exec .wrap180 s = .next (s.writeRes (fxWrap180 (raw s.opa))) := rfl

theorem exec_sin_eq (s : State) : exec .sin s = .next (s.writeRes (fxSin s.active (raw s.opa))) := rfl

theorem exec_cos_eq (s : State) : exec .cos s = .next (s.writeRes (fxCos s.active (raw s.opa))) := rfl

theorem exec_tan_eq (s : State) : exec .tan s = .next (s.writeRes (fxTan s.active (raw s.opa))) := rfl

theorem result_wrappi (s : State) (a b : Word) : result .wrappi s a b = word (fxWrappi (raw a)) :=
  result_of_exec (exec_wrappi_eq _)

theorem result_sin (s : State) (a b : Word) : result .sin s a b = word (fxSin s.active (raw a)) :=
  result_of_exec (exec_sin_eq _)

theorem result_cos (s : State) (a b : Word) : result .cos s a b = word (fxCos s.active (raw a)) :=
  result_of_exec (exec_cos_eq _)

theorem result_div (s : State) (a b : Word) : result .div s a b = word (fxDiv s.active (raw a) (raw b)) :=
  result_of_exec (exec_div_eq _)

end Commands

section SinCos

/-- The product MUL leaves, read back as an operand (R74). -/
theorem raw_result_mul (s : State) (a b : Word) : raw (result .mul s a b) = fxMul s.active (raw a) (raw b) := by
  rw [result_mul, raw_word, wrap32_fxMul]

/-- The wrapped angle WRAPPI leaves, read back as an operand (R115). -/
theorem raw_result_wrappi (s : State) (a b : Word) : raw (result .wrappi s a b) = fxWrappi (raw a) := by
  rw [result_wrappi, raw_word, wrap32_fxWrappi]

theorem raw_result_sin (s : State) (a b : Word) : raw (result .sin s a b) = fxSin s.active (raw a) := by
  rw [result_sin, raw_word, fxSin, wrap32_wrap32]

theorem raw_result_cos (s : State) (a b : Word) : raw (result .cos s a b) = fxCos s.active (raw a) := by
  rw [result_cos, raw_word, fxCos, fxSin, wrap32_wrap32]

/-- The series of R117 on the powers its multiplications form. -/
theorem sinSeries_eq {st : Settings} {x x2 p3 p5 p7 p9 p11 : Int} (hx2 : x2 = fxMul st x x) (hp3 : p3 = fxMul st x x2)
    (hp5 : p5 = fxMul st p3 x2) (hp7 : p7 = fxMul st p5 x2) (hp9 : p9 = fxMul st p7 x2) (hp11 : p11 = fxMul st p9 x2) :
    sinSeries st x = x - p3.tdiv 6 + p5.tdiv 120 - p7.tdiv 5040 + p9.tdiv 362880 - p11.tdiv 39916800 := by
  subst hx2 hp3 hp5 hp7 hp9 hp11
  rfl

/-- The 32-bit addition of `HALF_PI` on words (R118). -/
theorem raw_add_halfPi (w : Word) : raw (w + 0x00019220#32) = wrap32 (raw w + halfPi) := by
  rw [wrap32, word_add, word_raw]
  rfl

end SinCos

/-- Settles O50: the single-step wrap of either half turn, on the value of the operand. -/
theorem wrapsLandInTheHalfOpenTurn : Obligations.WrapsLandInTheHalfOpenTurn := fun s =>
  ⟨⟨fxWrappi (raw s.opa), exec_wrappi_eq s, fxWrappi_wrapped (raw s.opa)⟩,
    ⟨fxWrap180 (raw s.opa), exec_wrap180_eq s, fxWrap180_wrapped (raw s.opa)⟩⟩

/-- Settles O51: a word is within 5215 turns of the target range, the loop ends on a wrapped angle, and there is one only. -/
theorem wrapLoopRefinesTheWrap : Obligations.WrapLoopRefinesTheWrap := by
  intro a
  have ha := raw_bounds a
  have hpi : WrappedAngle pi (raw a) (wrapLoop pi twoPi (raw a)) :=
    wrapLoop_wrapped (by decide) (by decide) (by rw [pi, twoPi]; omega) (by rw [pi, twoPi]; omega)
  have h180 : WrappedAngle d180 (raw a) (wrapLoop d180 d360 (raw a)) :=
    wrapLoop_wrapped (by decide) (by decide) (by rw [d180, d360]; omega) (by rw [d180, d360]; omega)
  exact ⟨hpi.unique (fxWrappi_wrapped (raw a)), h180.unique (fxWrap180_wrapped (raw a))⟩

/-- Settles O52: every MUL and the wrap keep their value in a word, so the series on words is the series on values. -/
theorem sinIsTheSixTermSeries : Obligations.SinIsTheSixTermSeries := by
  intro s x x2 p3 p5 p7 p9 p11 hx hx2 hp3 hp5 hp7 hp9 hp11
  have hxraw : raw x = fxWrappi (raw s.opa) := by rw [hx, raw_result_wrappi]
  have hmul {p a b : Word} (hp : p = result .mul s a b) : raw p = fxMul s.active (raw a) (raw b) := by
    rw [hp, raw_result_mul]
  rw [exec_sin_eq, fxSin, ← hxraw, sinSeries_eq (hmul hx2) (hmul hp3) (hmul hp5) (hmul hp7) (hmul hp9) (hmul hp11),
    State.writeRes, word_wrap32]
  rfl

/-- Settles O53: SIN and COS keep their value in a word, so TAN divides what the two commands leave. -/
theorem cosAndTanAreBuiltOnSin : Obligations.CosAndTanAreBuiltOnSin := by
  intro s
  constructor
  · rw [exec_cos_eq, fxCos, result_sin, raw_add_halfPi]
    rfl
  · rw [exec_tan_eq, fxTan, result_div, raw_result_sin, raw_result_cos]
    rfl

end Sys2Proof.Machine
end

section
/-! PROOFS. The inverse trigonometric family (`46_inverse_trig.md`): the plain 32-bit sums of R125 on words, its angle as a
function of the ratio, the compositions of R126 to R128, and the odd symmetry of R126 (d). -/

namespace Sys2Proof.Machine

section Commands

theorem exec_atan2_eq (s : State) :
    exec .atan2 s = .next (s.writeRes (fxAtan2 s.active (raw s.opa) (raw s.opb))) := rfl

theorem exec_atan_eq (s : State) : exec .atan s = .next (s.writeRes (fxAtan s.active (raw s.opa))) := rfl

theorem exec_asin_eq (s : State) : exec .asin s = .next (s.writeRes (fxAsin s.active (raw s.opa))) := rfl

theorem exec_acos_eq (s : State) : exec .acos s = .next (s.writeRes (fxAcos s.active (raw s.opa))) := rfl

theorem result_sqrt (s : State) (a b : Word) : result .sqrt s a b = word (fxSqrt s.active (raw a)) :=
  result_of_exec (exec_sqrt_eq _)

theorem result_atan2 (s : State) (a b : Word) : result .atan2 s a b = word (fxAtan2 s.active (raw a) (raw b)) :=
  result_of_exec (exec_atan2_eq _)

theorem result_atan (s : State) (a b : Word) : result .atan s a b = word (fxAtan s.active (raw a)) :=
  result_of_exec (exec_atan_eq _)

theorem result_asin (s : State) (a b : Word) : result .asin s a b = word (fxAsin s.active (raw a)) :=
  result_of_exec (exec_asin_eq _)

/-- The quotient DIV leaves, read back as an operand (R75). -/
theorem raw_result_div (s : State) (a b : Word) : raw (result .div s a b) = fxDiv s.active (raw a) (raw b) := by
  rw [result_div, raw_word, wrap32_fxDiv]

/-- The root of a word fits a word (R90). -/
theorem wrap32_fxSqrt_raw (st : Settings) (w : Word) : wrap32 (fxSqrt st (raw w)) = fxSqrt st (raw w) := by
  obtain hneg | hpos := le_or_gt (raw w) 0
  · rw [fxSqrt_of_nonpos hneg, wrap32_sentinel]
  · have hmax : raw w ≤ 2147483647 := (raw_bounds w).2
    obtain ⟨-, hhigh⟩ := sqrtPositive_bounds st (a := (raw w).toNat) (by omega) (by omega)
    rw [fxSqrt_of_pos hpos]
    exact wrap32_of_range (by omega) (by omega)

/-- The root SQRT leaves, read back as an operand (R90). -/
theorem raw_result_sqrt (s : State) (a b : Word) : raw (result .sqrt s a b) = fxSqrt s.active (raw a) := by
  rw [result_sqrt, raw_word, wrap32_fxSqrt_raw]

end Commands

section PlainSums
variable (a b w : Word)

/-- The untested 32-bit addition of R125 is the addition of words. -/
theorem wrap32_raw_add : wrap32 (raw a + raw b) = raw (a + b) := by
  rw [wrap32, word_add, word_raw, word_raw]

/-- The untested 32-bit subtraction of R125 is the subtraction of words. -/
theorem wrap32_raw_sub : wrap32 (raw a - raw b) = raw (a - b) := by
  rw [wrap32, word_sub, word_raw, word_raw]

/-- Every word but the sentinel has its negation in the signed range. -/
theorem raw_neg_of_ne_sentinel (h : raw w ≠ -2147483648) : raw (-w) = -raw w := by
  have hw := raw_bounds w
  have hneg : raw (-w) = wrap32 (-raw w) := by rw [wrap32, word_neg, word_raw]
  rw [hneg]
  exact wrap32_of_range (by omega) (by omega)

/-- The sign-mask form of R125 negates a negative word: with all ones as mask the exclusive or is the complement. -/
theorem signMaskAbs_raw : signMaskAbs (raw w) = raw (if w.msb then -w else w) := by
  rw [signMaskAbs, msb_eq_raw_neg]
  by_cases h : raw w < 0
  · have hmask : word (-1) = BitVec.allOnes 32 := by decide
    have hsum : word (raw w + -1) = w - 1#32 := by
      rw [← sub_eq_add_neg, word_sub, word_raw]
      rfl
    simp only [if_pos h, decide_eq_true h, if_true]
    rw [hsum, hmask, BitVec.xor_allOnes, BitVec.not_sub_one_eq_not_add_one, BitVec.neg_eq_not_add]
  · have hmask : word 0 = 0#32 := rfl
    simp only [if_neg h, decide_eq_false h, Bool.false_eq_true, if_false]
    rw [add_zero, word_raw, hmask, BitVec.xor_zero]

end PlainSums

section Atan2

/-- The angle of R125 before its wrap: the base angle by the sign of `x`, and the cubic correction of the ratio `r`. -/
def atan2Angle (st : Settings) (r x : Int) : Int :=
  (if 0 ≤ x then quarterPi else threeQuarterPi) + fxMul st atanC3 (fxMul st (fxMul st r r) r) - fxMul st atanC1 r

/-- The angle does not depend on the sign of `y`, which only negates it at the end (R125). -/
theorem word_fxAtan2 (st : Settings) (y x : Int) :
    word (fxAtan2 st y x) =
      if y < 0 then -word (atan2Angle st (atan2Ratio st (signMaskAbs y) x) x)
      else word (atan2Angle st (atan2Ratio st (signMaskAbs y) x) x) := by
  have hangle : fxAtan2 st y x =
      if y < 0 then wrap32 (-wrap32 (atan2Angle st (atan2Ratio st (signMaskAbs y) x) x))
      else wrap32 (atan2Angle st (atan2Ratio st (signMaskAbs y) x) x) := rfl
  rw [hangle, apply_ite word, word_wrap32, word_wrap32, word_neg, word_wrap32]

/-- The ratio of R125 on words: DIV of the difference and the sum that the sign of `x` selects. -/
theorem atan2Ratio_raw (s : State) (ay x : Word) :
    atan2Ratio s.active (raw ay) (raw x) =
      raw (if x.msb then result .div s (x + ay) (ay - x) else result .div s (x - ay) (x + ay)) := by
  rw [atan2Ratio, apply_ite raw, raw_result_div, raw_result_div, wrap32_raw_add, wrap32_raw_sub, wrap32_raw_sub,
    msb_eq_raw_neg]
  simp only [decide_eq_true_eq, ← not_le, ite_not]

/-- The angle of R125 on words, for a ratio and a cube given as words. -/
theorem word_atan2Angle (s : State) (r x : Word) :
    word (atan2Angle s.active (raw r) (raw x)) =
      (if x.msb then 0x00025B30#32 else 0x0000C910#32)
        + result .mul s 0x00003240#32 (result .mul s (result .mul s r r) r) - result .mul s 0x0000FB50#32 r := by
  have hbase : word (if 0 ≤ raw x then quarterPi else threeQuarterPi)
      = if x.msb then 0x00025B30#32 else 0x0000C910#32 := by
    rw [apply_ite word, msb_eq_raw_neg]
    simp only [decide_eq_true_eq, ← not_le, ite_not]
    rfl
  rw [atan2Angle, word_sub, word_add, hbase, result_mul s _ (result .mul s (result .mul s r r) r), raw_result_mul,
    raw_result_mul, result_mul s _ r]
  rfl

/-- The ratio sees `y` by its absolute value alone, so ATAN2 changes sign with a `y` that has a sign of its own. -/
theorem word_fxAtan2_neg (st : Settings) (y : Word) (x : Int) (h0 : raw y ≠ 0) (hmin : raw y ≠ -2147483648) :
    word (fxAtan2 st (raw (-y)) x) = -word (fxAtan2 st (raw y) x) := by
  have hneg : raw (-y) = -raw y := raw_neg_of_ne_sentinel y hmin
  have habs : signMaskAbs (raw (-y)) = signMaskAbs (raw y) := by
    rw [signMaskAbs_raw, signMaskAbs_raw, msb_eq_raw_neg, msb_eq_raw_neg, hneg]
    obtain hy | hy := lt_or_gt_of_ne h0 <;> simp [hy, not_lt.mpr hy.le]
  rw [word_fxAtan2, word_fxAtan2, habs, hneg]
  obtain hy | hy := lt_or_gt_of_ne h0
  · rw [if_neg (by omega), if_pos hy, neg_neg]
  · rw [if_pos (by omega), if_neg (by omega)]

end Atan2

section Atan

/-- Dividing by 1.0 leaves 1.0 under every settings record: the quotient is exact (R75). -/
theorem fxDiv_one_one (st : Settings) : fxDiv st one one = one := by
  simp [fxDiv, divFinish, divMagnitude, divNeg, one]

/-- Multiplying by 1.0 leaves an operand that fits a word as it is: the product has no bits to round (R74). -/
theorem fxMul_one_right (st : Settings) {a : Int} (h1 : -2147483648 ≤ a) (h2 : a ≤ 2147483647) :
    fxMul st a one = a := by
  have hround : mulRound st (a * one) = a := by
    rw [mulRound, one]
    split_ifs <;> omega
  rw [fxMul_eq, hround, one, if_pos (by omega)]

/-- At a zero operand the ratio is 1.0, whose correction is exactly minus the base angle (R125 (a), R126 (b)). -/
theorem fxAtan_zero (st : Settings) : fxAtan st 0 = 0 := by
  have hratio : atan2Ratio st (signMaskAbs 0) one = one := fxDiv_one_one st
  have hangle : atan2Angle st one one = 0 := by
    have hone : fxMul st one one = one := fxMul_one_one st
    have hC1 : fxMul st atanC1 one = atanC1 := fxMul_one_right st (by decide) (by decide)
    have hC3 : fxMul st atanC3 one = atanC3 := fxMul_one_right st (by decide) (by decide)
    rw [atan2Angle, hone, hone, hC1, hC3]
    rfl
  have hatan : fxAtan st 0 = wrap32 (atan2Angle st (atan2Ratio st (signMaskAbs 0) one) one) := rfl
  rw [hatan, hratio, hangle]
  rfl

end Atan

/-- Settles O54: the absolute value, the ratio and the angle of R125, each on words. -/
theorem atan2IsTheCubicApproximation : Obligations.Atan2IsTheCubicApproximation := by
  intro s ay r r3 angle hay hr hr3 hangle
  have hratio : atan2Ratio s.active (signMaskAbs (raw s.opa)) (raw s.opb) = raw r := by
    rw [signMaskAbs_raw, ← hay, atan2Ratio_raw, ← hr]
  have hword : word (atan2Angle s.active (raw r) (raw s.opb)) = angle := by
    rw [word_atan2Angle, ← hr3, ← hangle]
  rw [exec_atan2_eq, State.writeRes, word_fxAtan2, hratio, hword, msb_eq_raw_neg]
  simp only [decide_eq_true_eq]

/-- Settles O55: each command composed keeps its value in a word, so composing results is composing values. -/
theorem atanAsinAcosCompose : Obligations.AtanAsinAcosCompose := by
  intro s
  refine ⟨?atan, ?asin, ?acos⟩
  case atan =>
    rw [exec_atan_eq, result_atan2]
    rfl
  case asin =>
    have hradicand : raw (0x00010000#32 - result .mul s s.opa s.opa)
        = wrap32 (one - fxMul s.active (raw s.opa) (raw s.opa)) := by
      rw [← wrap32_raw_sub, raw_result_mul]
      rfl
    rw [exec_asin_eq, result_atan, raw_result_div, raw_result_sqrt, hradicand, State.writeRes, fxAsin, apply_ite word]
    rfl
  case acos =>
    rw [exec_acos_eq, result_asin, State.writeRes, fxAcos, word_wrap32, word_sub]
    rfl

/-- Settles O56: an operand other than 0 has a sign for ATAN2 to negate by, and ATAN of 0 is 0. Of the range the proof needs only
that it excludes the sentinel: sums that wrap do so alike for both operands. -/
theorem atanIsOdd : Obligations.AtanIsOdd := by
  intro s x b hlow _
  have hmin : raw x ≠ -2147483648 := by
    rw [raw]
    omega
  rw [result_atan, result_atan]
  by_cases h0 : raw x = 0
  · have hzero : x = 0 := (raw_eq_zero_iff x).mp h0
    have hatan : fxAtan s.active (raw 0) = 0 := fxAtan_zero s.active
    rw [hzero, neg_zero, hatan]
    rfl
  · exact word_fxAtan2_neg s.active x one h0 hmin

end Sys2Proof.Machine
end

section
/-! PROOFS. Repetition and idleness (`70_reset_and_hazards.md`, R164, R175): a command but PSTEP does not read what it writes, so it
leaves the state it has just left; and a step with nothing pending changes nothing. -/

namespace Sys2Proof.Machine

section Repetition
variable {i : Instr}

/-- A command that writes `RES` alone does not read it, so an earlier write of `RES` is lost in the new one (R11, R47). -/
theorem exec_writeRes (hw : writesResOnly i = true) (s : State) (v : Int) : exec i (s.writeRes v) = exec i s := by
  cases i with
  | nop | cfgset | cfgsel | pinit | pstep => cases hw
  | _ => rfl

/-- The validations of CFGSET look at the number of banks and the operands, and CFGSET writes none of them (R61). -/
theorem cfgsetValid_congr {s t : State} {bank rndv satv : Nat} (hn : t.nbanks = s.nbanks) (ha : t.opa = s.opa)
    (hb : t.opb = s.opb) : cfgsetValid t bank rndv satv = true ↔ cfgsetValid s bank rndv satv = true := by
  simp only [cfgsetValid_iff, State.operandA, State.operandB, hn, ha, hb]

/-- A second CFGSET is judged as the first, and writes the bank that already stands there, or `RES` and `CFGERR` alone (R61). -/
theorem exec_cfgset_repeats {bank rndv satv : Nat} {s t : State} (h : exec (.cfgset bank rndv satv) s = .next t) :
    exec (.cfgset bank rndv satv) t = .next t := by
  obtain ⟨hopa, hopb, -, -, -, -, hbanks⟩ := exec_keeps_operands_and_bus h
  have hsame : cfgsetValid t bank rndv satv = true ↔ cfgsetValid s bank rndv satv = true :=
    cfgsetValid_congr hbanks hopa hopb
  by_cases hv : cfgsetValid s bank rndv satv = true
  · rw [exec_cfgset_of_valid (hsame.mpr hv), hopa, hopb]
    rw [exec_cfgset_of_valid hv] at h
    cases h
    simp [State.writeBank, State.writeRes, State.setCfgerr]
  · rw [exec_cfgset_of_not_valid (mt hsame.mp hv)]
    rw [exec_cfgset_of_not_valid hv] at h
    cases h
    rfl

/-- A command but PSTEP, executed on the state it has just left, leaves that state (R175). -/
theorem exec_repeats {s t : State} (hi : i ≠ .pstep) (h : exec i s = .next t) : exec i t = .next t := by
  by_cases hw : writesResOnly i = true
  · obtain ⟨v, hv⟩ := exec_of_writesResOnly hw s
    rw [hv] at h
    cases h
    rw [exec_writeRes hw, hv]
  · cases i with
    | cfgset bank rndv satv => exact exec_cfgset_repeats h
    | nop | cfgsel | pinit => cases h; rfl
    | pstep => exact absurd rfl hi
    | _ => exact absurd rfl hw

end Repetition

/-- Settles O14: an idle step is the one of the three ways of a step that leaves no access to refuse or perform. -/
theorem idleUnitKeepsItsState : Obligations.IdleUnitKeepsItsState := by
  intro s hb
  obtain ⟨-, hs⟩ | ⟨a, rest, hpending, -⟩ | ⟨a, rest, tr, t, hpending, -⟩ := step_cases s
  · exact hs
  · exact absurd (hpending.symm.trans hb) (List.cons_ne_nil a rest)
  · exact absurd (hpending.symm.trans hb) (List.cons_ne_nil a rest)

/-- Settles O9: every command completes, and all but PSTEP repeat. -/
theorem repeatedCommandIsHarmless : Obligations.RepeatedCommandIsHarmless := by
  intro i s hi
  obtain ⟨t, ht⟩ := exec_completes i s
  exact ⟨t, ht, exec_repeats hi ht⟩

end Sys2Proof.Machine
end

section
/-! PROOFS. The hyperbolic family (`47_hyperbolic.md`, R135 to R137): EXP keeps its value in a word, so the values the commands
combine are the results of EXP at the operand and at its negation; and the even symmetry of R135 (e). -/

namespace Sys2Proof.Machine

section Commands

theorem exec_cosh_eq (s : State) : exec .cosh s = .next (s.writeRes (fxCosh s.active (raw s.opa))) := rfl

theorem exec_sinh_eq (s : State) : exec .sinh s = .next (s.writeRes (fxSinh s.active (raw s.opa))) := rfl

theorem exec_tanh_eq (s : State) : exec .tanh s = .next (s.writeRes (fxTanh s.active (raw s.opa))) := rfl

theorem result_cosh (s : State) (a b : Word) : result .cosh s a b = word (fxCosh s.active (raw a)) :=
  result_of_exec (exec_cosh_eq _)

/-- The exponential EXP leaves, read back as an operand (R100). -/
theorem raw_result_exp (s : State) (a b : Word) : raw (result .exp s a b) = fxExp s.active (raw a) := by
  rw [result_exp, raw_word, wrap32_fxExp]

/-- EXP leaves the pattern `SENTINEL` exactly where its value is the sentinel (R3, R100). -/
theorem result_exp_eq_sentinel_iff (s : State) (a b : Word) :
    result .exp s a b = 0x80000000#32 ↔ fxExp s.active (raw a) = sentinel := by
  rw [result_exp, word_eq_sentinelWord_iff (wrap32_fxExp s.active (raw a))]

/-- The negated operand of R135 to R137 is the negation of words. -/
theorem wrap32_neg_raw (w : Word) : wrap32 (-raw w) = raw (-w) := by
  rw [wrap32, word_neg, word_raw]

end Commands

section Symmetry
variable {x : Int}

/-- Negating the operand exchanges the two exponentials of R135, and their sum and the test for the sentinel are symmetric. -/
theorem fxCosh_neg (st : Settings) (hlow : -2147483648 < x) (hhigh : x ≤ 2147483647) : fxCosh st (-x) = fxCosh st x := by
  have hneg : wrap32 (-x) = -x := wrap32_of_range (by omega) (by omega)
  have hnegneg : wrap32 (- -x) = x := by rw [neg_neg, wrap32_of_range (by omega) hhigh]
  have hclamp : (expArgMax ≤ -x ∨ -x ≤ -expArgMax) ↔ (expArgMax ≤ x ∨ x ≤ -expArgMax) := by omega
  have hsentinel : (fxExp st (-x) = sentinel ∨ fxExp st x = sentinel) ↔
      (fxExp st x = sentinel ∨ fxExp st (-x) = sentinel) := or_comm
  simp only [fxCosh, hneg, hnegneg, neg_eq_zero, hclamp, hsentinel, add_comm (fxExp st (-x))]

end Symmetry

/-- Settles O57: each branch of the rules, on the words EXP leaves. -/
theorem hyperbolicsCombineTwoExponentials : Obligations.HyperbolicsCombineTwoExponentials := by
  intro s x ep en hx hep hen
  have hraw : x = raw s.opa := hx
  have hp : fxExp s.active x = raw ep := by rw [hep, raw_result_exp, hraw]
  have hn : fxExp s.active (wrap32 (-x)) = raw en := by rw [hen, raw_result_exp, hraw, wrap32_neg_raw]
  have hps : ep = 0x80000000#32 ↔ raw ep = sentinel := by rw [← hp, hep, result_exp_eq_sentinel_iff, hraw]
  have hns : en = 0x80000000#32 ↔ raw en = sentinel := by
    rw [← hn, hen, result_exp_eq_sentinel_iff, hraw, wrap32_neg_raw]
  refine ⟨?cosh, ?sinh, ?tanh⟩
  case cosh =>
    rw [exec_cosh_eq, ← hraw, State.writeRes, fxCosh, hp, hn]
    simp only [hps, hns, apply_ite word, word_raw]
    rfl
  case sinh =>
    rw [exec_sinh_eq, ← hraw, State.writeRes, fxSinh, hp, hn]
    simp only [hps, hns, apply_ite word, word_raw]
    rfl
  case tanh =>
    rw [exec_tanh_eq, ← hraw, State.writeRes, fxTanh, hp, hn]
    simp only [result_div, apply_ite word, wrap32_raw_sub, wrap32_raw_add]
    rfl

/-- Settles O58: every word but the sentinel has its negation in the signed range. -/
theorem coshIsEven : Obligations.CoshIsEven := by
  intro s x b hx
  obtain ⟨hlow, hhigh⟩ := raw_bounds x
  have hmin : raw x ≠ -2147483648 := fun h => hx (raw_eq_iff.mp h)
  rw [result_cosh, result_cosh, raw_neg_of_ne_sentinel x hmin, fxCosh_neg s.active (by omega) hhigh]

end Sys2Proof.Machine
end

section
/-! PROOFS. The real conversions of the host (`48_host_conversions.md`, R141, R142) in exact arithmetic: truncation is the floor or
the ceiling by the sign, the rounding flag adds a bias below one unit away from zero, so the scaled value moves by less than one. -/

namespace Sys2Proof.Machine

section Truncation
variable {q : Rat}

theorem ratTrunc_of_nonneg (h : 0 ≤ q) : ratTrunc q = ⌊q⌋ := by
  rw [ratTrunc, Int.tdiv_eq_ediv_of_nonneg (Rat.num_nonneg.mpr h), Rat.floor_def']

theorem ratTrunc_neg (q : Rat) : ratTrunc (-q) = -ratTrunc q := by
  rw [ratTrunc, ratTrunc, Rat.neg_num, Rat.neg_den, Int.neg_tdiv]

theorem ratTrunc_of_nonpos (h : q ≤ 0) : ratTrunc q = ⌈q⌉ := by
  rw [← neg_neg q, ratTrunc_neg, ratTrunc_of_nonneg (neg_nonneg.mpr h), Int.ceil_neg]

end Truncation

section RoundTrip
variable {q : Rat}

/-- What R141 adds to the magnitude before it truncates. -/
def roundBias (rnd : Bool) : Rat := if rnd then 1 / 2 else 0

theorem roundBias_bounds (rnd : Bool) : 0 ≤ roundBias rnd ∧ roundBias rnd < 1 := by
  cases rnd <;> norm_num [roundBias]

theorem realScaled_of_nonneg (rnd : Bool) (h : 0 ≤ q) : realScaled id rnd q = q * 65536 + roundBias rnd := by
  cases rnd <;> simp [realScaled, roundBias, h]

theorem realScaled_of_neg (rnd : Bool) (h : q < 0) : realScaled id rnd q = q * 65536 - roundBias rnd := by
  cases rnd <;> simp [realScaled, roundBias, not_le.mpr h]

/-- Biased away from zero by less than one and truncated toward zero, the scaled value moves by less than one (R141). -/
theorem abs_ratTrunc_realScaled_sub_lt_one (rnd : Bool) (q : Rat) :
    |(ratTrunc (realScaled id rnd q) : Rat) - q * 65536| < 1 := by
  obtain ⟨hbias, hbias_lt⟩ := roundBias_bounds rnd
  rw [abs_lt]
  obtain hq | hq := le_or_gt 0 q
  · rw [realScaled_of_nonneg rnd hq, ratTrunc_of_nonneg (by positivity)]
    have hle := Int.floor_le (q * 65536 + roundBias rnd)
    have hlt := Int.lt_floor_add_one (q * 65536 + roundBias rnd)
    constructor <;> linarith
  · rw [realScaled_of_neg rnd hq, ratTrunc_of_nonpos (by linarith)]
    have hle := Int.le_ceil (q * 65536 - roundBias rnd)
    have hlt := Int.ceil_lt_add_one (q * 65536 - roundBias rnd)
    constructor <;> linarith

/-- In its defined range RealToFixed leaves the truncated value, and FixedToReal reads it back exactly (R141, R142). -/
theorem fixedToReal_realToFixed {rnd : Bool} (hlow : -2147483648 ≤ ratTrunc (realScaled id rnd q))
    (hhigh : ratTrunc (realScaled id rnd q) ≤ 2147483647) :
    fixedToReal id (realToFixed id rnd (.finite q)) = (ratTrunc (realScaled id rnd q) : Rat) / 65536 := by
  have hword : realToFixed id rnd (.finite q) = word (ratTrunc (realScaled id rnd q)) := if_pos ⟨hlow, hhigh⟩
  rw [hword, fixedToReal, raw_word, wrap32_of_range hlow hhigh]
  rfl

end RoundTrip

/-- Settles O59: the scaled value moves by less than one unit, which is one LSB after the division by 65536. -/
theorem realRoundTripLosesLessThanOneLsb : Obligations.RealRoundTripLosesLessThanOneLsb := by
  intro rnd q hlow hhigh
  obtain ⟨hlower, hupper⟩ := abs_lt.mp (abs_ratTrunc_realScaled_sub_lt_one rnd q)
  rw [fixedToReal_realToFixed hlow hhigh, abs_lt]
  constructor <;> linarith

end Sys2Proof.Machine
end
